-- ==== Sys2Proof/Word.lean ====
section
/-! DEFINITION. The widths of the machine's data: the 32-bit word, the storage units of the store instructions, and
the operand fields of an instruction word. -/

namespace Sys2Proof

/-- A 32-bit value: general register, HI, LO, `pc`, `npc`, address or instruction word (`00_scope.md` R4 XLEN, R5). -/
abbrev Word := BitVec 32

/-- A half word is 16 bits (`00_scope.md` R8). -/
abbrev Half := BitVec 16

/-- A byte is 8 bits (`00_scope.md` R8). -/
abbrev Byte := BitVec 8

/-- The number of a general register, as the Source, Target and Destination fields hold it: five bits, hence 32
registers (`10_state.md` R10). -/
abbrev Reg := BitVec 5

/-- The Shift field `h` (`30_encoding.md` R51, R60). -/
abbrev Shamt := BitVec 5

/-- The 16-bit Immediate field `imm` of an I-format word (`30_encoding.md` R52). -/
abbrev Imm16 := BitVec 16

/-- The 26-bit Immediate field `imm26` of J and JAL (`30_encoding.md` R53). -/
abbrev Imm26 := BitVec 26

end Sys2Proof
end

