-- ==== Sys2Proof/Syntax.lean ====
section
/-! DEFINITION. The 54 instructions of `spec/opcode_table.json`, one constructor a row, with the operands of the
source's Syntax line in the order it writes them (`30_encoding.md` R71), and their mnemonics. -/

namespace Sys2Proof

/-- The 54 mnemonics, in the source's order (`00_scope.md` R2). They name entries of the parameter SUPPORTED. -/
inductive Mnemonic where
  | ADD | ADDI | ADDIU | ADDU | AND | ANDI | BEQ | BGEZ | BGEZAL
  | BGTZ | BLEZ | BLTZ | BLTZAL | BNE | BREAK | DIV | DIVU | J
  | JAL | JALR | JR | LB | LBU | LH | LHU | LUI | LW
  | MFHI | MFLO | MTHI | MTLO | MULT | MULTU | NOR | OR | ORI
  | SB | SH | SLL | SLLV | SLT | SLTI | SLTIU | SLTU | SRA
  | SRAV | SRL | SRLV | SUB | SUBU | SW | SYSCALL | XOR | XORI
deriving DecidableEq, Repr

/-- An instruction. Ignored fields (`30_encoding.md` R67) are no operands and are not kept. -/
inductive Instr where
  /-- ADD: `add $d, $s, $t` (R104). -/
  | add (rd : Reg) (rs : Reg) (rt : Reg)
  /-- ADDI: `addi $t, $s, imm` (R105). -/
  | addi (rt : Reg) (rs : Reg) (imm : Imm16)
  /-- ADDIU: `addiu $t, $s, imm` (R106). -/
  | addiu (rt : Reg) (rs : Reg) (imm : Imm16)
  /-- ADDU: `addu $d, $s, $t` (R107). -/
  | addu (rd : Reg) (rs : Reg) (rt : Reg)
  /-- AND: `and $d, $s, $t` (R108). -/
  | and (rd : Reg) (rs : Reg) (rt : Reg)
  /-- ANDI: `andi $t, $s, imm` (R109). -/
  | andi (rt : Reg) (rs : Reg) (imm : Imm16)
  /-- BEQ: `beq $s, $t, imm` (R159). -/
  | beq (rs : Reg) (rt : Reg) (imm : Imm16)
  /-- BGEZ: `bgez $s, offset` (R160). -/
  | bgez (rs : Reg) (imm : Imm16)
  /-- BGEZAL: `bgezal $s, imm` (R161). -/
  | bgezal (rs : Reg) (imm : Imm16)
  /-- BGTZ: `bgtz $s, imm` (R162). -/
  | bgtz (rs : Reg) (imm : Imm16)
  /-- BLEZ: `blez $s, imm` (R163). -/
  | blez (rs : Reg) (imm : Imm16)
  /-- BLTZ: `bltz $s, imm` (R164). -/
  | bltz (rs : Reg) (imm : Imm16)
  /-- BLTZAL: `bltzal $s, imm` (R165). -/
  | bltzal (rs : Reg) (imm : Imm16)
  /-- BNE: `bne $s, $t, imm` (R166). -/
  | bne (rs : Reg) (rt : Reg) (imm : Imm16)
  /-- BREAK: `break` (R190). -/
  | brk
  /-- DIV: `div $s, $t` (R143). -/
  | div (rs : Reg) (rt : Reg)
  /-- DIVU: `divu $s, $t` (R144). -/
  | divu (rs : Reg) (rt : Reg)
  /-- J: `j imm26` (R167). -/
  | j (imm26 : Imm26)
  /-- JAL: `jal imm26` (R168). -/
  | jal (imm26 : Imm26)
  /-- JALR: `jalr $d,$s` (R169). -/
  | jalr (rd : Reg) (rs : Reg)
  /-- JR: `jr $s` (R170). -/
  | jr (rs : Reg)
  /-- LB: `lb $t, imm($s)` (R178). -/
  | lb (rt : Reg) (imm : Imm16) (rs : Reg)
  /-- LBU: `lbu $t, imm($s)` (R179). -/
  | lbu (rt : Reg) (imm : Imm16) (rs : Reg)
  /-- LH: `lh $t, imm($s)` (R180). -/
  | lh (rt : Reg) (imm : Imm16) (rs : Reg)
  /-- LHU: `lhu $t, imm($s)` (R181). -/
  | lhu (rt : Reg) (imm : Imm16) (rs : Reg)
  /-- LUI: `lui $t, imm` (R110). -/
  | lui (rt : Reg) (imm : Imm16)
  /-- LW: `lw $t, imm($s)` (R182). -/
  | lw (rt : Reg) (imm : Imm16) (rs : Reg)
  /-- MFHI: `mfhi $d` (R145). -/
  | mfhi (rd : Reg)
  /-- MFLO: `mflo $d` (R146). -/
  | mflo (rd : Reg)
  /-- MTHI: `mthi $s` (R147). -/
  | mthi (rs : Reg)
  /-- MTLO: `mtlo $s` (R148). -/
  | mtlo (rs : Reg)
  /-- MULT: `mult $s, $t` (R149). -/
  | mult (rs : Reg) (rt : Reg)
  /-- MULTU: `multu $s, $t` (R150). -/
  | multu (rs : Reg) (rt : Reg)
  /-- NOR: `nor $d, $s, $t` (R111). -/
  | nor (rd : Reg) (rs : Reg) (rt : Reg)
  /-- OR: `or $d, $s, $t` (R112). -/
  | or (rd : Reg) (rs : Reg) (rt : Reg)
  /-- ORI: `ori $t, $s, imm` (R113). -/
  | ori (rt : Reg) (rs : Reg) (imm : Imm16)
  /-- SB: `sb $t, imm($s)` (R183). -/
  | sb (rt : Reg) (imm : Imm16) (rs : Reg)
  /-- SH: `sh $t, imm($s)` (R184). -/
  | sh (rt : Reg) (imm : Imm16) (rs : Reg)
  /-- SLL: `sll $d, $t, h` (R131). -/
  | sll (rd : Reg) (rt : Reg) (sh : Shamt)
  /-- SLLV: `sllv $d, $t, $s` (R132). -/
  | sllv (rd : Reg) (rt : Reg) (rs : Reg)
  /-- SLT: `slt $d, $s, $t` (R114). -/
  | slt (rd : Reg) (rs : Reg) (rt : Reg)
  /-- SLTI: `slti $t, $s, imm` (R115). -/
  | slti (rt : Reg) (rs : Reg) (imm : Imm16)
  /-- SLTIU: `sltiu $t, $s, imm` (R116). -/
  | sltiu (rt : Reg) (rs : Reg) (imm : Imm16)
  /-- SLTU: `sltu $d, $s, $t` (R117). -/
  | sltu (rd : Reg) (rs : Reg) (rt : Reg)
  /-- SRA: `sra $d, $t, h` (R133). -/
  | sra (rd : Reg) (rt : Reg) (sh : Shamt)
  /-- SRAV: `srav $d, $t, $s` (R134). -/
  | srav (rd : Reg) (rt : Reg) (rs : Reg)
  /-- SRL: `srl $d, $t, h` (R135). -/
  | srl (rd : Reg) (rt : Reg) (sh : Shamt)
  /-- SRLV: `srlv $d, $t, $s` (R136). -/
  | srlv (rd : Reg) (rt : Reg) (rs : Reg)
  /-- SUB: `sub $d, $s, $t` (R118). -/
  | sub (rd : Reg) (rs : Reg) (rt : Reg)
  /-- SUBU: `subu $d, $s, $t` (R119). -/
  | subu (rd : Reg) (rs : Reg) (rt : Reg)
  /-- SW: `sw $t, imm($s)` (R185). -/
  | sw (rt : Reg) (imm : Imm16) (rs : Reg)
  /-- SYSCALL: `syscall` (R191). -/
  | syscall
  /-- XOR: `xor $d, $s, $t` (R120). -/
  | xor (rd : Reg) (rs : Reg) (rt : Reg)
  /-- XORI: `xori $t, $s, imm` (R121). -/
  | xori (rt : Reg) (rs : Reg) (imm : Imm16)
deriving DecidableEq, Repr

/-- The mnemonic of an instruction (`30_encoding.md` R71). -/
def Instr.mnemonic : Instr → Mnemonic
  | .add _ _ _ => .ADD
  | .addi _ _ _ => .ADDI
  | .addiu _ _ _ => .ADDIU
  | .addu _ _ _ => .ADDU
  | .and _ _ _ => .AND
  | .andi _ _ _ => .ANDI
  | .beq _ _ _ => .BEQ
  | .bgez _ _ => .BGEZ
  | .bgezal _ _ => .BGEZAL
  | .bgtz _ _ => .BGTZ
  | .blez _ _ => .BLEZ
  | .bltz _ _ => .BLTZ
  | .bltzal _ _ => .BLTZAL
  | .bne _ _ _ => .BNE
  | .brk => .BREAK
  | .div _ _ => .DIV
  | .divu _ _ => .DIVU
  | .j _ => .J
  | .jal _ => .JAL
  | .jalr _ _ => .JALR
  | .jr _ => .JR
  | .lb _ _ _ => .LB
  | .lbu _ _ _ => .LBU
  | .lh _ _ _ => .LH
  | .lhu _ _ _ => .LHU
  | .lui _ _ => .LUI
  | .lw _ _ _ => .LW
  | .mfhi _ => .MFHI
  | .mflo _ => .MFLO
  | .mthi _ => .MTHI
  | .mtlo _ => .MTLO
  | .mult _ _ => .MULT
  | .multu _ _ => .MULTU
  | .nor _ _ _ => .NOR
  | .or _ _ _ => .OR
  | .ori _ _ _ => .ORI
  | .sb _ _ _ => .SB
  | .sh _ _ _ => .SH
  | .sll _ _ _ => .SLL
  | .sllv _ _ _ => .SLLV
  | .slt _ _ _ => .SLT
  | .slti _ _ _ => .SLTI
  | .sltiu _ _ _ => .SLTIU
  | .sltu _ _ _ => .SLTU
  | .sra _ _ _ => .SRA
  | .srav _ _ _ => .SRAV
  | .srl _ _ _ => .SRL
  | .srlv _ _ _ => .SRLV
  | .sub _ _ _ => .SUB
  | .subu _ _ _ => .SUBU
  | .sw _ _ _ => .SW
  | .syscall => .SYSCALL
  | .xor _ _ _ => .XOR
  | .xori _ _ _ => .XORI

/-- The twelve control-transfer instructions (`10_state.md` R16). -/
def Mnemonic.isControlTransfer : Mnemonic → Bool
  | .BEQ | .BGEZ | .BGEZAL | .BGTZ | .BLEZ | .BLTZ | .BLTZAL | .BNE | .J | .JAL | .JALR | .JR => true
  | .ADD | .ADDI | .ADDIU | .ADDU | .AND | .ANDI | .BREAK | .DIV | .DIVU | .LB | .LBU | .LH | .LHU | .LUI | .LW |
    .MFHI | .MFLO | .MTHI | .MTLO | .MULT | .MULTU | .NOR | .OR | .ORI | .SB | .SH | .SLL | .SLLV | .SLT | .SLTI |
    .SLTIU | .SLTU | .SRA | .SRAV | .SRL | .SRLV | .SUB | .SUBU | .SW | .SYSCALL | .XOR | .XORI => false

/-- The five loads (`10_state.md` R17). -/
def Mnemonic.isLoad : Mnemonic → Bool
  | .LB | .LBU | .LH | .LHU | .LW => true
  | .ADD | .ADDI | .ADDIU | .ADDU | .AND | .ANDI | .BEQ | .BGEZ | .BGEZAL | .BGTZ | .BLEZ | .BLTZ | .BLTZAL | .BNE |
    .BREAK | .DIV | .DIVU | .J | .JAL | .JALR | .JR | .LUI | .MFHI | .MFLO | .MTHI | .MTLO | .MULT | .MULTU | .NOR |
    .OR | .ORI | .SB | .SH | .SLL | .SLLV | .SLT | .SLTI | .SLTIU | .SLTU | .SRA | .SRAV | .SRL | .SRLV | .SUB |
    .SUBU | .SW | .SYSCALL | .XOR | .XORI => false

/-- The three stores (`20_memory.md` R31). -/
def Mnemonic.isStore : Mnemonic → Bool
  | .SB | .SH | .SW => true
  | .ADD | .ADDI | .ADDIU | .ADDU | .AND | .ANDI | .BEQ | .BGEZ | .BGEZAL | .BGTZ | .BLEZ | .BLTZ | .BLTZAL | .BNE |
    .BREAK | .DIV | .DIVU | .J | .JAL | .JALR | .JR | .LB | .LBU | .LH | .LHU | .LUI | .LW | .MFHI | .MFLO | .MTHI |
    .MTLO | .MULT | .MULTU | .NOR | .OR | .ORI | .SLL | .SLLV | .SLT | .SLTI | .SLTIU | .SLTU | .SRA | .SRAV | .SRL
    | .SRLV | .SUB | .SUBU | .SYSCALL | .XOR | .XORI => false

end Sys2Proof
end

