-- ==== Sys2Proof/Config.lean ====
section
/-! DEFINITION. What one machine fixes for a whole run: the parameters of `00_scope.md` R4, as plain data; and the
free values, constants without a body that nothing can evaluate. -/

namespace Sys2Proof

/-- ENDIAN (`20_memory.md` R33). -/
inductive Endian where
  | big | little
deriving DecidableEq, Repr

/-- LOAD_DELAY (`70_reset_and_hazards.md` R237). -/
inductive LoadDelay where
  | interlocked | refuse
deriving DecidableEq, Repr

/-- IMM_EXT_U (`30_encoding.md` R57). -/
inductive ImmExt where
  | sign | zero
deriving DecidableEq, Repr

/-- BRANCH_BASE, 4 or 0 (`43_branch_jump.md` R156). -/
inductive BranchBase where
  | four | zero
deriving DecidableEq, Repr

/-- LINK_NOT_TAKEN (`43_branch_jump.md` R161, R165). -/
inductive LinkNotTaken where
  | draw | always | onlyIfTaken
deriving DecidableEq, Repr

/-- MULT_HI (`42_muldiv.md` R141). -/
inductive MultHi where
  | upper | any
deriving DecidableEq, Repr

/-- DIV_OVF (`42_muldiv.md` R143). -/
inductive DivOvf where
  | wrap | any
deriving DecidableEq, Repr

/-- ZERO_FIELDS (`30_encoding.md` R65). -/
inductive ZeroFields where
  | refuse | ignore
deriving DecidableEq, Repr

/-- The byte addresses `base .. base + size - 1`. A list of regions stands for their union, and every set of 32-bit
addresses is such a union. -/
structure Region where
  base : Nat
  size : Nat
deriving DecidableEq, Repr

/-- Does the region hold the address? -/
def Region.holds (r : Region) (a : Nat) : Bool := r.base ≤ a && a < r.base + r.size

/-- Is the address in one of the regions? -/
def Region.anyHolds (rs : List Region) (a : Nat) : Bool := rs.any (·.holds a)

/-- The parameters of `00_scope.md` R4. XLEN, NREGS and ILEN are in the types of `Word.lean`; DIV_ZERO has the one value
`any`; END_OF_RUN, a predicate, is an argument of `Sys2Proof.runUntil` (`Safety.lean`). SUPPORTED is given by its
complement `dropped`. -/
structure Params where
  /-- ENDIAN. -/
  endian : Endian
  /-- RESET_PC. -/
  resetPc : Word
  /-- MEM_MAP: the byte addresses backed by memory (`20_memory.md` R40). -/
  memMap : List Region
  /-- TEXT: the byte addresses of the program, which no store may write (`20_memory.md` R43). -/
  text : List Region
  /-- LOAD_DELAY. -/
  loadDelay : LoadDelay
  /-- TRAP_VECTOR (`60_exceptions.md` R210). -/
  trapVector : Option Word
  /-- IMM_EXT_U. -/
  immExtU : ImmExt
  /-- BRANCH_BASE. -/
  branchBase : BranchBase
  /-- LINK_NOT_TAKEN. -/
  linkNotTaken : LinkNotTaken
  /-- MULT_HI. -/
  multHi : MultHi
  /-- DIV_OVF. -/
  divOvf : DivOvf
  /-- ZERO_FIELDS. -/
  zeroFields : ZeroFields
  /-- The entries of R2 that SUPPORTED leaves out. -/
  dropped : List Mnemonic
deriving DecidableEq, Repr

/-- What R4 asks of the open parameters: RESET_PC and TRAP_VECTOR are multiples of 4 (R210), TEXT is a subset of
MEM_MAP. -/
def Params.Wf (p : Params) : Prop :=
  p.resetPc.toNat % 4 = 0 ∧ (∀ v, p.trapVector = some v → v.toNat % 4 = 0) ∧
    ∀ a, Region.anyHolds p.text a = true → Region.anyHolds p.memMap a = true

namespace Config

/-- `any32()` (`00_scope.md` R7): the n-th draw of a run, a free 32-bit value under no law. Log entry 10; safe. -/
opaque anyWord : Nat → BitVec 32

/-- The draw of LINK_NOT_TAKEN = draw (`43_branch_jump.md` R161, R165): does the n-th draw of a run write the link? A free
value. Log entry 11; safe. -/
opaque anyLink : Nat → Bool

/-- What the byte at an address holds before the program, the initial data or a store has given it a value
(`70_reset_and_hazards.md` R232): a free value, one for each address (`20_memory.md` R44). Log entry 9; safe. -/
opaque initialByte : Nat → BitVec 8

end Config

end Sys2Proof
end

