-- ==== Sys2Proof/Machine/Defaults.lean ====
section
/-! DEFINITION. The values the spec leaves to the model: the parameters of `State.reset` and the registers after reset. -/

namespace Sys2Proof

/-- The parameters of `State.reset`. The decided ones have the value `00_scope.md` R4 decides, TRAP_VECTOR its default.
DESIGN CHOICE, unsafe (log entries 2 to 5): big byte order, RESET_PC 0, all addresses mapped, no program text, interlocked
loads, since the spec leaves ENDIAN, RESET_PC, MEM_MAP, TEXT and LOAD_DELAY open. -/
def Params.default : Params where
  endian := .big
  resetPc := 0#32
  memMap := [{ base := 0, size := 4294967296 }]
  text := []
  loadDelay := .interlocked
  trapVector := none
  immExtU := .sign
  branchBase := .four
  linkNotTaken := .draw
  multHi := .upper
  divOvf := .wrap
  zeroFields := .refuse
  dropped := []

namespace Machine

/-- The general registers after reset: all 0. DESIGN CHOICE, unsafe (log entry 7): the spec leaves `x[1]` .. `x[31]`
unspecified (`70_reset_and_hazards.md` R231). -/
def regsAtReset : Vector Word 32 := Vector.replicate 32 0#32

/-- HI after reset: 0. DESIGN CHOICE, unsafe (log entry 7). -/
def hiAtReset : Word := 0#32

/-- LO after reset: 0. DESIGN CHOICE, unsafe (log entry 7). -/
def loAtReset : Word := 0#32

end Machine

end Sys2Proof
end

