-- ==== Sys2Proof/Machine/State.lean ====
section
/-! DEFINITION. The state of the machine (`10_state.md` R24), the record of a trap, the ways a step can stop, and the
machine after reset. -/

namespace Sys2Proof.Machine

/-- The seven exceptions (`60_exceptions.md` R200). -/
inductive Exception where
  | overflow | breakpoint | systemCall | addressErrorLoad | addressErrorStore | addressErrorFetch | reservedInstruction
deriving DecidableEq, Repr

/-- `trap(E, epc, in_delay, info)` (`60_exceptions.md` R209). -/
structure TrapRecord where
  /-- The exception `E`. -/
  cause : Exception
  /-- The address of the instruction that raised; for AddressErrorFetch the misaligned `pc`. -/
  epc : Word
  /-- `in_delay` at the start of the step. -/
  inDelay : Bool
  /-- The recorded value of R200's table. -/
  info : Word
deriving DecidableEq, Repr

/-- Memory: the bytes that the program, the initial data or a store has given a value, as (address, byte) pairs with
addresses strictly rising (`Memory.Wf` in `Ops.lean`). An address not listed holds no known value (R232). -/
abbrev Memory := List Host.Cell

/-- The state (`10_state.md` R24), plus three fields of the model's own: `params`, `draws` and `lastTrap`. -/
structure State where
  /-- `x[0]` .. `x[31]` (R10). Read and written through `State.readReg` and `State.writeReg` only, which make `x[0]` the
  constant 0 (R11): the element at index 0 is never looked at. -/
  regs : Vector Word 32
  /-- HI (R21). -/
  hi : Word
  /-- LO (R21). -/
  lo : Word
  /-- `pc`, the source's `PC` (R14). -/
  pc : Word
  /-- `npc`, the source's `nPC` (R14, R15). -/
  npc : Word
  /-- `in_delay` (R16). -/
  inDelay : Bool
  /-- `load_reg` (R16, R17). -/
  loadReg : Reg
  /-- `MEM[]` (R23). -/
  mem : Memory
  /-- The model's own: the parameters of `00_scope.md` R4, which no step changes. Log entry 1. -/
  params : Params
  /-- The model's own: how many draws (`any32()`, the link draw) the run has made. Log entry 10. -/
  draws : Nat
  /-- The model's own: the record that R210 makes available to the platform when TRAP_VECTOR is set. No instruction reads
  it. Log entry 12. -/
  lastTrap : Option TrapRecord
deriving DecidableEq, Repr

/-- A step that ends in a fault. -/
inductive Fault where
  /-- The terminal trap of `60_exceptions.md` R209, under TRAP_VECTOR = none. Raised by ADD, ADDI, SUB (Overflow), BREAK,
  SYSCALL, LH, LHU, LW, SH, SW (address errors), a misaligned `pc` and a reserved word. Safe: hardware that went on to a
  handler has no behaviour the model claims anything about. -/
  | trap (t : TrapRecord)
deriving DecidableEq, Repr

/-- A step that the spec gives no meaning, `refuse(reason)` (`00_scope.md` R7, R9). Every one is safe: the model stops where
hardware goes on in a way the spec does not say. -/
inductive Refusal where
  /-- A load, store or fetch with a byte outside MEM_MAP (`20_memory.md` R40). Safe. -/
  | unmapped
  /-- A store with a byte in TEXT (`20_memory.md` R43). Raised by SB, SH, SW. Safe. -/
  | storeToText
  /-- A word with a non-zero bit in a field printed `5'h0`, under ZERO_FIELDS = refuse (`30_encoding.md` R65). Safe. -/
  | nonzeroConstantField
  /-- An instruction that names the register loaded by the step before, under LOAD_DELAY = refuse
  (`70_reset_and_hazards.md` R237). Safe. -/
  | loadUse
  /-- One of the twelve control transfers in a delay slot (`43_branch_jump.md` R171). Safe. -/
  | controlTransferInDelaySlot
  /-- JALR with `rd = rs`, not register 0 (`43_branch_jump.md` R169). Safe. -/
  | jalrSameRegister
  /-- An instruction of the opcode table without a meaning in the model. No arm of `exec` answers it. Safe. -/
  | notModelled (mnemonic : String)
deriving DecidableEq, Repr

/-- The state after reset under the parameters `p` (`70_reset_and_hazards.md` R230 to R233): `pc = RESET_PC`,
`npc = RESET_PC + 4`, not in a delay slot, nothing loaded, no byte of memory known. DESIGN CHOICE, unsafe (log entry 7):
`x[1]` .. `x[31]`, HI and LO hold the values of `Defaults.lean`, where the spec leaves them unspecified. -/
def State.resetWith (p : Params) : State where
  regs := regsAtReset
  hi := hiAtReset
  lo := loAtReset
  pc := p.resetPc
  npc := p.resetPc + 4#32
  inDelay := false
  loadReg := 0#5
  mem := []
  params := p
  draws := 0
  lastTrap := none

/-- The machine right after reset, under the parameters the log names (entries 2 to 5). -/
def State.reset : State := State.resetWith Params.default

end Sys2Proof.Machine
end

