-- ==== Sys2Proof/Machine/Ops.lean ====
section
/-! DEFINITION. The named operations over the state: the general registers, memory by bytes, the two byte orders, the
address map, the draws, the commit of a step, and taking an exception. -/

namespace Sys2Proof.Machine

/-- The three outcomes of a step (`00_scope.md` R9). -/
abbrev StepOutcome := Host.Outcome State Fault Refusal

/-! ### General registers -/

/-- `x[r]`; `x[0]` reads as 0 (`10_state.md` R11, `00_scope.md` R7). -/
def State.readReg (s : State) (r : Reg) : Word := if r = 0#5 then 0#32 else s.regs[r.toNat]

/-- `x[r] <- v`; a write to `x[0]` is discarded (`10_state.md` R11, `00_scope.md` R7). -/
def State.writeReg (s : State) (r : Reg) (v : Word) : State :=
  if r = 0#5 then s else { s with regs := s.regs.set r.toNat v }

/-- The link register `$31` (`00_scope.md` R6). -/
def linkReg : Reg := 31#5

/-! ### Draws -/

/-- The next `any32()` of the run (`00_scope.md` R7). -/
def State.drawWord (s : State) : Word := Config.anyWord s.draws

/-- The next draw between the two values of LINK_NOT_TAKEN = draw (`43_branch_jump.md` R161). -/
def State.drawLink (s : State) : Bool := Config.anyLink s.draws

/-- One draw has been made. -/
def State.afterDraw (s : State) : State := { s with draws := s.draws + 1 }

/-! ### Memory as a list of cells -/

/-- The canonical form: addresses strictly rising, all of 32 bits. An address not listed reads as no value, so no entry can
equal what it would read as unlisted. -/
abbrev Memory.Wf (m : Memory) : Prop :=
  m.Pairwise (fun a b => a.1 < b.1) ∧ ∀ c ∈ m, c.1 < 4294967296

/-- The byte listed at an address, if any. -/
def Memory.lookup : Memory → Nat → Option Byte
  | [], _ => none
  | (k, b) :: m, a => if k = a then some b else Memory.lookup m a

/-- List a byte at an address, in place or in order. -/
def Memory.insert : Memory → Nat → Byte → Memory
  | [], a, v => [(a, v)]
  | (k, b) :: m, a, v =>
    if a < k then (a, v) :: (k, b) :: m
    else if a = k then (a, v) :: m
    else (k, b) :: Memory.insert m a v

/-- `MEM[a]`. A byte that nothing has given a value reads as the free value of its address: the one definition of what an
unlisted address reads as (`70_reset_and_hazards.md` R232, the permitted treatment of `10_state.md` R13; log entry 9). -/
def State.readByte (s : State) (a : Word) : Byte :=
  match s.mem.lookup a.toNat with
  | some b => b
  | none => Config.initialByte a.toNat

/-- Write bytes at an address and the following ones, modulo 2^32. -/
def Memory.writeBytes : Memory → Word → List Byte → Memory
  | m, _, [] => m
  | m, a, b :: bs => Memory.writeBytes (m.insert a.toNat b) (a + 1#32) bs

/-- Write bytes at an address and the following ones. -/
def State.writeBytes (s : State) (a : Word) (bs : List Byte) : State := { s with mem := s.mem.writeBytes a bs }

/-! ### Byte order (`20_memory.md` R34, R35) -/

/-- The half word whose byte at the lower address is `b0`. -/
def halfOfBytes (e : Endian) (b0 b1 : Byte) : Half :=
  match e with
  | .big => b0 ++ b1
  | .little => b1 ++ b0

/-- The word whose bytes are `b0` .. `b3` from the lowest address up. -/
def wordOfBytes (e : Endian) (b0 b1 b2 b3 : Byte) : Word :=
  match e with
  | .big => b0 ++ b1 ++ b2 ++ b3
  | .little => b3 ++ b2 ++ b1 ++ b0

/-- The bytes of a half word from the lower address up. -/
def bytesOfHalf (e : Endian) (v : Half) : List Byte :=
  match e with
  | .big => [v.extractLsb' 8 8, v.extractLsb' 0 8]
  | .little => [v.extractLsb' 0 8, v.extractLsb' 8 8]

/-- The bytes of a word from the lowest address up. -/
def bytesOfWord (e : Endian) (v : Word) : List Byte :=
  match e with
  | .big => [v.extractLsb' 24 8, v.extractLsb' 16 8, v.extractLsb' 8 8, v.extractLsb' 0 8]
  | .little => [v.extractLsb' 0 8, v.extractLsb' 8 8, v.extractLsb' 16 8, v.extractLsb' 24 8]

/-- `MemRead(a, 1)` (`20_memory.md` R34). -/
def State.read1 (s : State) (a : Word) : Byte := s.readByte a

/-- `MemRead(a, 2)` (`20_memory.md` R34). -/
def State.read2 (s : State) (a : Word) : Half := halfOfBytes s.params.endian (s.readByte a) (s.readByte (a + 1#32))

/-- `MemRead(a, 4)` (`20_memory.md` R34). -/
def State.read4 (s : State) (a : Word) : Word :=
  wordOfBytes s.params.endian (s.readByte a) (s.readByte (a + 1#32)) (s.readByte (a + 2#32)) (s.readByte (a + 3#32))

/-- `MemWrite(a, 1, v)` (`20_memory.md` R35). -/
def State.write1 (s : State) (a : Word) (v : Byte) : State := s.writeBytes a [v]

/-- `MemWrite(a, 2, v)` (`20_memory.md` R35). -/
def State.write2 (s : State) (a : Word) (v : Half) : State := s.writeBytes a (bytesOfHalf s.params.endian v)

/-- `MemWrite(a, 4, v)` (`20_memory.md` R35). -/
def State.write4 (s : State) (a : Word) (v : Word) : State := s.writeBytes a (bytesOfWord s.params.endian v)

/-! ### Alignment and the address map -/

/-- Is the address a multiple of `n` (`20_memory.md` R36, R37)? -/
def aligned (n : Nat) (a : Word) : Bool := a.toNat % n == 0

/-- Are all of the `n` bytes from `a` in MEM_MAP (`20_memory.md` R40)? -/
def State.mapped (s : State) (a : Word) (n : Nat) : Bool :=
  (List.range n).all fun k => Region.anyHolds s.params.memMap (a + BitVec.ofNat 32 k).toNat

/-- Is one of the `n` bytes from `a` in TEXT (`20_memory.md` R43)? -/
def State.touchesText (s : State) (a : Word) (n : Nat) : Bool :=
  (List.range n).any fun k => Region.anyHolds s.params.text (a + BitVec.ofNat 32 k).toNat

/-! ### The commit of a step (`10_state.md` R17) -/

/-- `pc <- npc; npc <- next_npc; in_delay <- next_delay; load_reg <- next_load`. -/
def State.commit (s : State) (nextNpc : Word) (nextDelay : Bool) (nextLoad : Reg) : State :=
  { s with pc := s.npc, npc := nextNpc, inDelay := nextDelay, loadReg := nextLoad }

/-- The commit of an instruction that is neither a control transfer nor a load. -/
def State.advance (s : State) : State := s.commit (s.npc + 4#32) false 0#5

/-- The commit of a load to register `r`: `next_load = r`. -/
def State.advanceLoad (s : State) (r : Reg) : State := s.commit (s.npc + 4#32) false r

/-- The commit of a control transfer that transfers (`43_branch_jump.md` R155). -/
def State.transferTo (s : State) (target : Word) : State := s.commit target true 0#5

/-- The commit of a conditional branch that is not taken (`43_branch_jump.md` R155). -/
def State.notTaken (s : State) : State := s.commit (s.npc + 4#32) true 0#5

/-! ### Exceptions -/

/-- Taking an exception, `raise E(info)` (`60_exceptions.md` R209 to R211): with TRAP_VECTOR none the run ends in the trap and
the state stays as it was; with TRAP_VECTOR = v control goes to v and nothing else that an instruction can read changes.
No register saves the `pc` or a status (there is none, R22), and no instruction returns from a trap (R212): the record goes
to the platform alone. -/
def raise (e : Exception) (info : Word) (s : State) : StepOutcome :=
  match s.params.trapVector with
  | none => .fault (.trap { cause := e, epc := s.pc, inDelay := s.inDelay, info := info })
  | some v =>
    .next { s with
      pc := v
      npc := v + 4#32
      inDelay := false
      loadReg := 0#5
      lastTrap := some { cause := e, epc := s.pc, inDelay := s.inDelay, info := info } }

/-! ### Shared forms of the meanings -/

/-- Write one general register and go on (`40_arith_logic.md` R100). -/
def writeAndAdvance (s : State) (r : Reg) (v : Word) : StepOutcome := .next (s.writeReg r v).advance

/-- Write one general register, unless the result overflowed: then raise Overflow (`40_arith_logic.md` R102). -/
def writeUnlessOverflow (s : State) (overflows : Bool) (r : Reg) (v : Word) : StepOutcome :=
  if overflows then raise .overflow s.pc s else writeAndAdvance s r v

/-- Write HI and LO and go on (`42_muldiv.md` R140). -/
def writeHiLo (s : State) (hi lo : Word) : StepOutcome := .next { s with hi := hi, lo := lo }.advance

/-- The checks of a load of `n` bytes, in their order, before its access (`44_load_store.md` R175). -/
def checkedLoad (s : State) (n : Nat) (ea : Word) (access : StepOutcome) : StepOutcome :=
  if aligned n ea then
    if s.mapped ea n then access else .refused .unmapped
  else raise .addressErrorLoad ea s

/-- The checks of a store of `n` bytes, in their order, before its access (`44_load_store.md` R175). -/
def checkedStore (s : State) (n : Nat) (ea : Word) (access : StepOutcome) : StepOutcome :=
  if aligned n ea then
    if s.mapped ea n then
      if s.touchesText ea n then .refused .storeToText else access
    else .refused .unmapped
  else raise .addressErrorStore ea s

/-- The end of a load: the value goes to `x[rt]`, and the next step knows which register was loaded
(`44_load_store.md` R176). -/
def finishLoad (s : State) (rt : Reg) (v : Word) : StepOutcome := .next ((s.writeReg rt v).advanceLoad rt)

/-- A control transfer that is itself in a delay slot is refused before any effect (`43_branch_jump.md` R171). -/
def unlessInDelaySlot (s : State) (effect : StepOutcome) : StepOutcome :=
  if s.inDelay then .refused .controlTransferInDelaySlot else effect

end Sys2Proof.Machine
end

