-- ==== Sys2Proof/Machine/Operands.lean ====
section
/-! DEFINITION. The operand forms: extension of immediates, effective addresses, shift counts, branch and jump targets, the
link value, and the registers an instruction names. -/

namespace Sys2Proof.Machine

/-- `sext_16(imm)` (`30_encoding.md` R55). -/
def sext16 (imm : Imm16) : Word := imm.signExtend 32

/-- `zext_16(imm)` (`30_encoding.md` R56). -/
def zext16 (imm : Imm16) : Word := imm.zeroExtend 32

/-- `sext_8(b)` (`00_scope.md` R7). -/
def sext8 (b : Byte) : Word := b.signExtend 32

/-- `zext_8(b)` (`00_scope.md` R7). -/
def zext8 (b : Byte) : Word := b.zeroExtend 32

/-- The immediate of ADDIU and SLTIU, under IMM_EXT_U (`30_encoding.md` R57). -/
def immU (p : Params) (imm : Imm16) : Word :=
  match p.immExtU with
  | .sign => sext16 imm
  | .zero => zext16 imm

/-- `imm ++ 0x0000`, LUI's operand (`30_encoding.md` R60, `40_arith_logic.md` R110). -/
def upperImm (imm : Imm16) : Word := imm ++ 0#16

/-- The effective address of a load or store (`20_memory.md` R32). -/
def effectiveAddress (s : State) (rs : Reg) (imm : Imm16) : Word := s.readReg rs + sext16 imm

/-- The count of SLLV, SRAV and SRLV: the low five bits of `x[rs]` (`41_shift.md` R130). -/
def shiftCount (v : Word) : Nat := (v.extractLsb' 0 5).toNat

/-- BRANCH_BASE as a number of bytes (`43_branch_jump.md` R156). -/
def branchBaseBytes (p : Params) : Word :=
  match p.branchBase with
  | .four => 4#32
  | .zero => 0#32

/-- The target of a conditional branch (`43_branch_jump.md` R156). -/
def branchTarget (s : State) (imm : Imm16) : Word := s.pc + branchBaseBytes s.params + (sext16 imm <<< 2)

/-- The target of J and JAL: the 256 MiB region of the delay slot's address (`43_branch_jump.md` R157). -/
def jumpTarget (s : State) (imm26 : Imm26) : Word := (s.npc &&& 0xF0000000#32) ||| (imm26.zeroExtend 32 <<< 2)

/-- The return address a linking instruction saves, `cur + 8` (`43_branch_jump.md` R158). -/
def linkValue (s : State) : Word := s.pc + 8#32

/-- The general registers an instruction names as a source or a destination: its `$s`, `$t` and `$d` operands, and the
implicit `$31` of BGEZAL, BLTZAL and JAL (`70_reset_and_hazards.md` R237, `30_encoding.md` R71). -/
def namedRegs : Instr → List Reg
  | .add rd rs rt | .addu rd rs rt | .and rd rs rt | .nor rd rs rt | .or rd rs rt | .slt rd rs rt | .sltu rd rs rt
  | .sub rd rs rt | .subu rd rs rt | .xor rd rs rt => [rd, rs, rt]
  | .sllv rd rt rs | .srav rd rt rs | .srlv rd rt rs => [rd, rt, rs]
  | .sll rd rt _ | .sra rd rt _ | .srl rd rt _ => [rd, rt]
  | .addi rt rs _ | .addiu rt rs _ | .andi rt rs _ | .ori rt rs _ | .slti rt rs _ | .sltiu rt rs _ | .xori rt rs _ =>
    [rt, rs]
  | .lui rt _ => [rt]
  | .lb rt _ rs | .lbu rt _ rs | .lh rt _ rs | .lhu rt _ rs | .lw rt _ rs | .sb rt _ rs | .sh rt _ rs | .sw rt _ rs =>
    [rt, rs]
  | .beq rs rt _ | .bne rs rt _ => [rs, rt]
  | .bgez rs _ | .bgtz rs _ | .blez rs _ | .bltz rs _ => [rs]
  | .bgezal rs _ | .bltzal rs _ => [rs, linkReg]
  | .j _ => []
  | .jal _ => [linkReg]
  | .jalr rd rs => [rd, rs]
  | .jr rs => [rs]
  | .mfhi rd | .mflo rd => [rd]
  | .mthi rs | .mtlo rs => [rs]
  | .mult rs rt | .multu rs rt | .div rs rt | .divu rs rt => [rs, rt]
  | .brk | .syscall => []

/-- Does the instruction use the register that the step before loaded, where LOAD_DELAY refuses that
(`70_reset_and_hazards.md` R237)? -/
def loadUse (s : State) (i : Instr) : Bool :=
  match s.params.loadDelay with
  | .interlocked => false
  | .refuse => s.loadReg != 0#5 && (namedRegs i).contains s.loadReg

end Sys2Proof.Machine
end

