-- ==== Sys2Proof/Machine/Flags.lean ====
section
/-! DEFINITION. The machine has no flags (`10_state.md` R20). What other machines compute as flags is here a condition of one
instruction: signed overflow, the comparisons of the SLT family, and the tests of the branches. -/

namespace Sys2Proof.Machine

/-- Is the exact result outside -2^31 .. 2^31 - 1? -/
def outsideSigned32 (v : Int) : Bool := v < -2147483648 || 2147483647 < v

/-- Signed overflow of an addition (`40_arith_logic.md` R102). -/
def addOverflows (a b : Word) : Bool := outsideSigned32 (a.toInt + b.toInt)

/-- Signed overflow of a subtraction (`40_arith_logic.md` R102). -/
def subOverflows (a b : Word) : Bool := outsideSigned32 (a.toInt - b.toInt)

/-- `a <s b` (`00_scope.md` R7). -/
def lessSigned (a b : Word) : Bool := a.toInt < b.toInt

/-- `a <u b` (`00_scope.md` R7). -/
def lessUnsigned (a b : Word) : Bool := a.toNat < b.toNat

/-- The 32-bit value 1 when the comparison holds, else 0 (`40_arith_logic.md` R103). -/
def truthWord (c : Bool) : Word := if c then 1#32 else 0#32

/-- `signed(v) >= 0` (`43_branch_jump.md` R160). -/
def isNonNegative (v : Word) : Bool := 0 ≤ v.toInt

/-- `signed(v) > 0` (`43_branch_jump.md` R162). -/
def isPositive (v : Word) : Bool := 0 < v.toInt

/-- `signed(v) <= 0` (`43_branch_jump.md` R163). -/
def isNonPositive (v : Word) : Bool := v.toInt ≤ 0

/-- `signed(v) < 0` (`43_branch_jump.md` R164). -/
def isNegative (v : Word) : Bool := v.toInt < 0

end Sys2Proof.Machine
end

