-- ==== Sys2Proof/Machine/Arith.lean ====
section
/-! DEFINITION. The 18 arithmetic, logical, compare and LUI instructions (`40_arith_logic.md`). -/

namespace Sys2Proof.Machine

/-- ADD (R104). -/
def execAdd (rd rs rt : Reg) (s : State) : StepOutcome :=
  writeUnlessOverflow s (addOverflows (s.readReg rs) (s.readReg rt)) rd (s.readReg rs + s.readReg rt)

/-- ADDI (R105). -/
def execAddi (rt rs : Reg) (imm : Imm16) (s : State) : StepOutcome :=
  writeUnlessOverflow s (addOverflows (s.readReg rs) (sext16 imm)) rt (s.readReg rs + sext16 imm)

/-- ADDIU (R106). -/
def execAddiu (rt rs : Reg) (imm : Imm16) (s : State) : StepOutcome :=
  writeAndAdvance s rt (s.readReg rs + immU s.params imm)

/-- ADDU (R107). -/
def execAddu (rd rs rt : Reg) (s : State) : StepOutcome := writeAndAdvance s rd (s.readReg rs + s.readReg rt)

/-- AND (R108). -/
def execAnd (rd rs rt : Reg) (s : State) : StepOutcome := writeAndAdvance s rd (s.readReg rs &&& s.readReg rt)

/-- ANDI (R109). -/
def execAndi (rt rs : Reg) (imm : Imm16) (s : State) : StepOutcome :=
  writeAndAdvance s rt (s.readReg rs &&& zext16 imm)

/-- LUI (R110). -/
def execLui (rt : Reg) (imm : Imm16) (s : State) : StepOutcome := writeAndAdvance s rt (upperImm imm)

/-- NOR (R111). -/
def execNor (rd rs rt : Reg) (s : State) : StepOutcome := writeAndAdvance s rd (~~~(s.readReg rs ||| s.readReg rt))

/-- OR (R112). -/
def execOr (rd rs rt : Reg) (s : State) : StepOutcome := writeAndAdvance s rd (s.readReg rs ||| s.readReg rt)

/-- ORI (R113). -/
def execOri (rt rs : Reg) (imm : Imm16) (s : State) : StepOutcome :=
  writeAndAdvance s rt (s.readReg rs ||| zext16 imm)

/-- SLT (R114). -/
def execSlt (rd rs rt : Reg) (s : State) : StepOutcome :=
  writeAndAdvance s rd (truthWord (lessSigned (s.readReg rs) (s.readReg rt)))

/-- SLTI (R115). -/
def execSlti (rt rs : Reg) (imm : Imm16) (s : State) : StepOutcome :=
  writeAndAdvance s rt (truthWord (lessSigned (s.readReg rs) (sext16 imm)))

/-- SLTIU (R116). -/
def execSltiu (rt rs : Reg) (imm : Imm16) (s : State) : StepOutcome :=
  writeAndAdvance s rt (truthWord (lessUnsigned (s.readReg rs) (immU s.params imm)))

/-- SLTU (R117). -/
def execSltu (rd rs rt : Reg) (s : State) : StepOutcome :=
  writeAndAdvance s rd (truthWord (lessUnsigned (s.readReg rs) (s.readReg rt)))

/-- SUB (R118). -/
def execSub (rd rs rt : Reg) (s : State) : StepOutcome :=
  writeUnlessOverflow s (subOverflows (s.readReg rs) (s.readReg rt)) rd (s.readReg rs - s.readReg rt)

/-- SUBU (R119). -/
def execSubu (rd rs rt : Reg) (s : State) : StepOutcome := writeAndAdvance s rd (s.readReg rs - s.readReg rt)

/-- XOR (R120). -/
def execXor (rd rs rt : Reg) (s : State) : StepOutcome := writeAndAdvance s rd (s.readReg rs ^^^ s.readReg rt)

/-- XORI (R121). -/
def execXori (rt rs : Reg) (imm : Imm16) (s : State) : StepOutcome :=
  writeAndAdvance s rt (s.readReg rs ^^^ zext16 imm)

end Sys2Proof.Machine
end

