-- ==== Sys2Proof/Machine/Branch.lean ====
section
/-! DEFINITION. The twelve control transfers (`43_branch_jump.md`). Every transfer is delayed by one instruction (R155). -/

namespace Sys2Proof.Machine

/-- A conditional branch (R155): refused in a delay slot, else the delay slot follows and the transfer after it. -/
def branchIf (s : State) (taken : Bool) (imm : Imm16) : StepOutcome :=
  unlessInDelaySlot s (.next (if taken then s.transferTo (branchTarget s imm) else s.notTaken))

/-- What a linking branch that is not taken does to `$31`, under LINK_NOT_TAKEN (R161, R165). -/
def linkNotTaken (s : State) : State :=
  match s.params.linkNotTaken with
  | .draw => if s.drawLink then (s.writeReg linkReg (linkValue s)).afterDraw else s.afterDraw
  | .always => s.writeReg linkReg (linkValue s)
  | .onlyIfTaken => s

/-- A conditional branch that links (R161, R165). -/
def branchIfAndLink (s : State) (taken : Bool) (imm : Imm16) : StepOutcome :=
  unlessInDelaySlot s (.next
    (if taken then (s.writeReg linkReg (linkValue s)).transferTo (branchTarget s imm) else (linkNotTaken s).notTaken))

/-- BEQ (R159). -/
def execBeq (rs rt : Reg) (imm : Imm16) (s : State) : StepOutcome := branchIf s (s.readReg rs == s.readReg rt) imm

/-- BNE (R166). -/
def execBne (rs rt : Reg) (imm : Imm16) (s : State) : StepOutcome := branchIf s (s.readReg rs != s.readReg rt) imm

/-- BGEZ (R160). -/
def execBgez (rs : Reg) (imm : Imm16) (s : State) : StepOutcome := branchIf s (isNonNegative (s.readReg rs)) imm

/-- BGTZ (R162). -/
def execBgtz (rs : Reg) (imm : Imm16) (s : State) : StepOutcome := branchIf s (isPositive (s.readReg rs)) imm

/-- BLEZ (R163). -/
def execBlez (rs : Reg) (imm : Imm16) (s : State) : StepOutcome := branchIf s (isNonPositive (s.readReg rs)) imm

/-- BLTZ (R164). -/
def execBltz (rs : Reg) (imm : Imm16) (s : State) : StepOutcome := branchIf s (isNegative (s.readReg rs)) imm

/-- BGEZAL (R161). -/
def execBgezal (rs : Reg) (imm : Imm16) (s : State) : StepOutcome :=
  branchIfAndLink s (isNonNegative (s.readReg rs)) imm

/-- BLTZAL (R165). -/
def execBltzal (rs : Reg) (imm : Imm16) (s : State) : StepOutcome :=
  branchIfAndLink s (isNegative (s.readReg rs)) imm

/-- J (R167). -/
def execJ (imm26 : Imm26) (s : State) : StepOutcome :=
  unlessInDelaySlot s (.next (s.transferTo (jumpTarget s imm26)))

/-- JAL (R168). -/
def execJal (imm26 : Imm26) (s : State) : StepOutcome :=
  unlessInDelaySlot s (.next ((s.writeReg linkReg (linkValue s)).transferTo (jumpTarget s imm26)))

/-- JALR (R169): the target is read before the link is written. -/
def execJalr (rd rs : Reg) (s : State) : StepOutcome :=
  unlessInDelaySlot s
    (if rd = rs ∧ rd ≠ 0#5 then .refused .jalrSameRegister
     else .next ((s.writeReg rd (linkValue s)).transferTo (s.readReg rs)))

/-- JR (R170). -/
def execJr (rs : Reg) (s : State) : StepOutcome := unlessInDelaySlot s (.next (s.transferTo (s.readReg rs)))

end Sys2Proof.Machine
end

