-- ==== Sys2Proof/Machine/LoadStore.lean ====
section
/-! DEFINITION. The five loads and three stores (`44_load_store.md`). -/

namespace Sys2Proof.Machine

/-- LB (R178). -/
def execLb (rt : Reg) (imm : Imm16) (rs : Reg) (s : State) : StepOutcome :=
  checkedLoad s 1 (effectiveAddress s rs imm) (finishLoad s rt (sext8 (s.read1 (effectiveAddress s rs imm))))

/-- LBU (R179). -/
def execLbu (rt : Reg) (imm : Imm16) (rs : Reg) (s : State) : StepOutcome :=
  checkedLoad s 1 (effectiveAddress s rs imm) (finishLoad s rt (zext8 (s.read1 (effectiveAddress s rs imm))))

/-- LH (R180). -/
def execLh (rt : Reg) (imm : Imm16) (rs : Reg) (s : State) : StepOutcome :=
  checkedLoad s 2 (effectiveAddress s rs imm) (finishLoad s rt (sext16 (s.read2 (effectiveAddress s rs imm))))

/-- LHU (R181). -/
def execLhu (rt : Reg) (imm : Imm16) (rs : Reg) (s : State) : StepOutcome :=
  checkedLoad s 2 (effectiveAddress s rs imm) (finishLoad s rt (zext16 (s.read2 (effectiveAddress s rs imm))))

/-- LW (R182). -/
def execLw (rt : Reg) (imm : Imm16) (rs : Reg) (s : State) : StepOutcome :=
  checkedLoad s 4 (effectiveAddress s rs imm) (finishLoad s rt (s.read4 (effectiveAddress s rs imm)))

/-- SB (R183). -/
def execSb (rt : Reg) (imm : Imm16) (rs : Reg) (s : State) : StepOutcome :=
  checkedStore s 1 (effectiveAddress s rs imm)
    (.next (s.write1 (effectiveAddress s rs imm) ((s.readReg rt).extractLsb' 0 8)).advance)

/-- SH (R184). -/
def execSh (rt : Reg) (imm : Imm16) (rs : Reg) (s : State) : StepOutcome :=
  checkedStore s 2 (effectiveAddress s rs imm)
    (.next (s.write2 (effectiveAddress s rs imm) ((s.readReg rt).extractLsb' 0 16)).advance)

/-- SW (R185). -/
def execSw (rt : Reg) (imm : Imm16) (rs : Reg) (s : State) : StepOutcome :=
  checkedStore s 4 (effectiveAddress s rs imm)
    (.next (s.write4 (effectiveAddress s rs imm) (s.readReg rt)).advance)

end Sys2Proof.Machine
end

