-- ==== Sys2Proof/Machine/MulDiv.lean ====
section
/-! DEFINITION. The eight multiply, divide and HI/LO move instructions (`42_muldiv.md`). -/

namespace Sys2Proof.Machine

/-- The exact product in 64 bits goes to HI and LO; with MULT_HI = any, HI is a draw (R141). -/
def writeProduct (s : State) (product : BitVec 64) : StepOutcome :=
  match s.params.multHi with
  | .upper => writeHiLo s (product.extractLsb' 32 32) (product.extractLsb' 0 32)
  | .any => writeHiLo s.afterDraw s.drawWord (product.extractLsb' 0 32)

/-- LO and HI are two draws, LO first: a division whose result the spec leaves open (R143, R144). -/
def drawHiLo (s : State) : StepOutcome := writeHiLo s.afterDraw.afterDraw s.afterDraw.drawWord s.drawWord

/-- MULT (R149). -/
def execMult (rs rt : Reg) (s : State) : StepOutcome :=
  writeProduct s (BitVec.ofInt 64 ((s.readReg rs).toInt * (s.readReg rt).toInt))

/-- MULTU (R150). -/
def execMultu (rs rt : Reg) (s : State) : StepOutcome :=
  writeProduct s (BitVec.ofNat 64 ((s.readReg rs).toNat * (s.readReg rt).toNat))

/-- The quotient toward zero and the remainder with the dividend's sign (R142). -/
def writeSignedQuotient (s : State) (a b : Int) : StepOutcome :=
  writeHiLo s (BitVec.ofInt 32 (a - a.tdiv b * b)) (BitVec.ofInt 32 (a.tdiv b))

/-- DIV (R143). -/
def execDiv (rs rt : Reg) (s : State) : StepOutcome :=
  if s.readReg rt = 0#32 then drawHiLo s
  else if s.readReg rs = 0x80000000#32 ∧ s.readReg rt = 0xFFFFFFFF#32 then
    match s.params.divOvf with
    | .wrap => writeHiLo s 0x00000000#32 0x80000000#32
    | .any => drawHiLo s
  else writeSignedQuotient s (s.readReg rs).toInt (s.readReg rt).toInt

/-- DIVU (R144). -/
def execDivu (rs rt : Reg) (s : State) : StepOutcome :=
  if s.readReg rt = 0#32 then drawHiLo s
  else writeHiLo s (BitVec.ofNat 32 ((s.readReg rs).toNat % (s.readReg rt).toNat))
    (BitVec.ofNat 32 ((s.readReg rs).toNat / (s.readReg rt).toNat))

/-- MFHI (R145). -/
def execMfhi (rd : Reg) (s : State) : StepOutcome := writeAndAdvance s rd s.hi

/-- MFLO (R146). -/
def execMflo (rd : Reg) (s : State) : StepOutcome := writeAndAdvance s rd s.lo

/-- MTHI (R147). -/
def execMthi (rs : Reg) (s : State) : StepOutcome := writeHiLo s (s.readReg rs) s.lo

/-- MTLO (R148). -/
def execMtlo (rs : Reg) (s : State) : StepOutcome := writeHiLo s s.hi (s.readReg rs)

end Sys2Proof.Machine
end

