-- ==== Sys2Proof/Machine/Shift.lean ====
section
/-! DEFINITION. The six shifts (`41_shift.md`). -/

namespace Sys2Proof.Machine

/-- SLL (R131). -/
def execSll (rd rt : Reg) (sh : Shamt) (s : State) : StepOutcome := writeAndAdvance s rd (s.readReg rt <<< sh.toNat)

/-- SLLV (R132). -/
def execSllv (rd rt rs : Reg) (s : State) : StepOutcome :=
  writeAndAdvance s rd (s.readReg rt <<< shiftCount (s.readReg rs))

/-- SRA (R133). -/
def execSra (rd rt : Reg) (sh : Shamt) (s : State) : StepOutcome :=
  writeAndAdvance s rd ((s.readReg rt).sshiftRight sh.toNat)

/-- SRAV (R134). -/
def execSrav (rd rt rs : Reg) (s : State) : StepOutcome :=
  writeAndAdvance s rd ((s.readReg rt).sshiftRight (shiftCount (s.readReg rs)))

/-- SRL (R135). -/
def execSrl (rd rt : Reg) (sh : Shamt) (s : State) : StepOutcome := writeAndAdvance s rd (s.readReg rt >>> sh.toNat)

/-- SRLV (R136). -/
def execSrlv (rd rt rs : Reg) (s : State) : StepOutcome :=
  writeAndAdvance s rd (s.readReg rt >>> shiftCount (s.readReg rs))

end Sys2Proof.Machine
end

