-- ==== Sys2Proof/Machine/System.lean ====
section
/-! DEFINITION. BREAK and SYSCALL (`45_system.md`). -/

namespace Sys2Proof.Machine

/-- BREAK (R190): the ignored bits 25..6 are not reported. -/
def execBreak (s : State) : StepOutcome := raise .breakpoint s.pc s

/-- SYSCALL (R191). -/
def execSyscall (s : State) : StepOutcome := raise .systemCall s.pc s

end Sys2Proof.Machine
end

