-- ==== Sys2Proof/WellFormed.lean ====
section
/-! DEFINITION. Well-formed instructions: those to which the spec gives a meaning by their operands alone. The widths
of the operand fields are in their types (`Word.lean`), so the one condition left is the relation between the two
registers of JALR. -/

namespace Sys2Proof

/-- JALR with `rd = rs`, other than register 0, has no meaning in the spec (`43_branch_jump.md` R169); every other
combination of operands has one. -/
def Instr.wellFormed : Instr → Bool
  | .jalr rd rs => rd != rs || rd == 0#5
  | .add _ _ _ | .addi _ _ _ | .addiu _ _ _ | .addu _ _ _ | .and _ _ _ | .andi _ _ _ | .beq _ _ _ | .bgez _ _
  | .bgezal _ _ | .bgtz _ _ | .blez _ _ | .bltz _ _ | .bltzal _ _ | .bne _ _ _ | .brk | .div _ _ | .divu _ _ | .j _
  | .jal _ | .jr _ | .lb _ _ _ | .lbu _ _ _ | .lh _ _ _ | .lhu _ _ _ | .lui _ _ | .lw _ _ _ | .mfhi _ | .mflo _
  | .mthi _ | .mtlo _ | .mult _ _ | .multu _ _ | .nor _ _ _ | .or _ _ _ | .ori _ _ _ | .sb _ _ _ | .sh _ _ _
  | .sll _ _ _ | .sllv _ _ _ | .slt _ _ _ | .slti _ _ _ | .sltiu _ _ _ | .sltu _ _ _ | .sra _ _ _ | .srav _ _ _
  | .srl _ _ _ | .srlv _ _ _ | .sub _ _ _ | .subu _ _ _ | .sw _ _ _ | .syscall | .xor _ _ _ | .xori _ _ _ => true

end Sys2Proof
end

