-- ==== Sys2Proof/Decode.lean ====
section
/-! DEFINITION. Instruction words: the fields of the three formats, the decoder (`30_encoding.md` R61 to R67), the
opcode table as the spec prints it (R64), and the encoder (the canonical words of R67). -/

namespace Sys2Proof

/-! ### Fields (`30_encoding.md` R51 to R53) -/

/-- `op`, bits 31..26. -/
def opOf (w : Word) : BitVec 6 := w.extractLsb' 26 6
/-- `rs`, bits 25..21. -/
def rsOf (w : Word) : Reg := w.extractLsb' 21 5
/-- `rt`, bits 20..16. -/
def rtOf (w : Word) : Reg := w.extractLsb' 16 5
/-- `rd`, bits 15..11. -/
def rdOf (w : Word) : Reg := w.extractLsb' 11 5
/-- `sh`, bits 10..6. -/
def shOf (w : Word) : Shamt := w.extractLsb' 6 5
/-- `fn`, bits 5..0. -/
def fnOf (w : Word) : BitVec 6 := w.extractLsb' 0 6
/-- `imm`, bits 15..0. -/
def immOf (w : Word) : Imm16 := w.extractLsb' 0 16
/-- `imm26`, bits 25..0. -/
def imm26Of (w : Word) : Imm26 := w.extractLsb' 0 26

/-! ### Decoding -/

/-- The function map, `op = 0b000000` (`30_encoding.md` R62). -/
def decodeFunction (w : Word) : Option Instr :=
  match fnOf w with
  | 0b000000#6 => some (.sll (rdOf w) (rtOf w) (shOf w))
  | 0b000010#6 => some (.srl (rdOf w) (rtOf w) (shOf w))
  | 0b000011#6 => some (.sra (rdOf w) (rtOf w) (shOf w))
  | 0b000100#6 => some (.sllv (rdOf w) (rtOf w) (rsOf w))
  | 0b000110#6 => some (.srlv (rdOf w) (rtOf w) (rsOf w))
  | 0b000111#6 => some (.srav (rdOf w) (rtOf w) (rsOf w))
  | 0b001000#6 => some (.jr (rsOf w))
  | 0b001001#6 => some (.jalr (rdOf w) (rsOf w))
  | 0b001100#6 => some .syscall
  | 0b001101#6 => some .brk
  | 0b010000#6 => some (.mfhi (rdOf w))
  | 0b010001#6 => some (.mthi (rsOf w))
  | 0b010010#6 => some (.mflo (rdOf w))
  | 0b010011#6 => some (.mtlo (rsOf w))
  | 0b011000#6 => some (.mult (rsOf w) (rtOf w))
  | 0b011001#6 => some (.multu (rsOf w) (rtOf w))
  | 0b011010#6 => some (.div (rsOf w) (rtOf w))
  | 0b011011#6 => some (.divu (rsOf w) (rtOf w))
  | 0b100000#6 => some (.add (rdOf w) (rsOf w) (rtOf w))
  | 0b100001#6 => some (.addu (rdOf w) (rsOf w) (rtOf w))
  | 0b100010#6 => some (.sub (rdOf w) (rsOf w) (rtOf w))
  | 0b100011#6 => some (.subu (rdOf w) (rsOf w) (rtOf w))
  | 0b100100#6 => some (.and (rdOf w) (rsOf w) (rtOf w))
  | 0b100101#6 => some (.or (rdOf w) (rsOf w) (rtOf w))
  | 0b100110#6 => some (.xor (rdOf w) (rsOf w) (rtOf w))
  | 0b100111#6 => some (.nor (rdOf w) (rsOf w) (rtOf w))
  | 0b101010#6 => some (.slt (rdOf w) (rsOf w) (rtOf w))
  | 0b101011#6 => some (.sltu (rdOf w) (rsOf w) (rtOf w))
  | _ => none

/-- The branch-group map, `op = 0b000001` (`30_encoding.md` R63). -/
def decodeBranchGroup (w : Word) : Option Instr :=
  match rtOf w with
  | 0b00000#5 => some (.bltz (rsOf w) (immOf w))
  | 0b00001#5 => some (.bgez (rsOf w) (immOf w))
  | 0b10000#5 => some (.bltzal (rsOf w) (immOf w))
  | 0b10001#5 => some (.bgezal (rsOf w) (immOf w))
  | _ => none

/-- The row a word selects by OPCODE, Function and branch-group `rt` (`30_encoding.md` R61); its constant-zero fields are not
looked at yet, its ignored fields never (R67). -/
def selectRow (w : Word) : Option Instr :=
  match opOf w with
  | 0b000000#6 => decodeFunction w
  | 0b000001#6 => decodeBranchGroup w
  | 0b000010#6 => some (.j (imm26Of w))
  | 0b000011#6 => some (.jal (imm26Of w))
  | 0b000100#6 => some (.beq (rsOf w) (rtOf w) (immOf w))
  | 0b000101#6 => some (.bne (rsOf w) (rtOf w) (immOf w))
  | 0b000110#6 => some (.blez (rsOf w) (immOf w))
  | 0b000111#6 => some (.bgtz (rsOf w) (immOf w))
  | 0b001000#6 => some (.addi (rtOf w) (rsOf w) (immOf w))
  | 0b001001#6 => some (.addiu (rtOf w) (rsOf w) (immOf w))
  | 0b001010#6 => some (.slti (rtOf w) (rsOf w) (immOf w))
  | 0b001011#6 => some (.sltiu (rtOf w) (rsOf w) (immOf w))
  | 0b001100#6 => some (.andi (rtOf w) (rsOf w) (immOf w))
  | 0b001101#6 => some (.ori (rtOf w) (rsOf w) (immOf w))
  | 0b001110#6 => some (.xori (rtOf w) (rsOf w) (immOf w))
  | 0b001111#6 => some (.lui (rtOf w) (immOf w))
  | 0b100000#6 => some (.lb (rtOf w) (immOf w) (rsOf w))
  | 0b100001#6 => some (.lh (rtOf w) (immOf w) (rsOf w))
  | 0b100011#6 => some (.lw (rtOf w) (immOf w) (rsOf w))
  | 0b100100#6 => some (.lbu (rtOf w) (immOf w) (rsOf w))
  | 0b100101#6 => some (.lhu (rtOf w) (immOf w) (rsOf w))
  | 0b101000#6 => some (.sb (rtOf w) (immOf w) (rsOf w))
  | 0b101001#6 => some (.sh (rtOf w) (immOf w) (rsOf w))
  | 0b101011#6 => some (.sw (rtOf w) (immOf w) (rsOf w))
  | _ => none

/-- The bits of an instruction's row that the source prints as `5'h0` (`30_encoding.md` R65): all of `sh`, `rd`, `rt` or `rs`
where printed so. -/
def constantZeroBits : Instr → Word
  | .add _ _ _ | .addi _ _ _ | .addiu _ _ _ | .andi _ _ _ | .beq _ _ _ | .bgez _ _ | .bgezal _ _ | .bltz _ _ |
    .bltzal _ _ | .bne _ _ _ | .brk | .j _ | .jal _ | .lb _ _ _ | .lbu _ _ _ | .lh _ _ _ | .lhu _ _ _ | .lui _ _ |
    .lw _ _ _ | .ori _ _ _ | .sb _ _ _ | .sh _ _ _ | .sll _ _ _ | .sllv _ _ _ | .slti _ _ _ | .sltiu _ _ _ | .sra
    _ _ _ | .srav _ _ _ | .srl _ _ _ | .sw _ _ _ | .syscall | .xor _ _ _ | .xori _ _ _ => 0x00000000#32
  | .addu _ _ _ | .and _ _ _ | .nor _ _ _ | .or _ _ _ | .slt _ _ _ | .sltu _ _ _ | .srlv _ _ _ | .sub _ _ _ |
    .subu _ _ _ => 0x000007C0#32
  | .div _ _ | .divu _ _ | .mult _ _ | .multu _ _ => 0x0000FFC0#32
  | .bgtz _ _ | .blez _ _ => 0x001F0000#32
  | .jalr _ _ => 0x001F07C0#32
  | .jr _ | .mthi _ | .mtlo _ => 0x001FFFC0#32
  | .mfhi _ | .mflo _ => 0x03FF07C0#32

/-- What decoding a word answers. -/
inductive Decoded where
  /-- The word is this instruction. -/
  | instr (i : Instr)
  /-- The word selects a row and has a non-zero bit in a constant-zero field of it (`30_encoding.md` R65). -/
  | nonzeroConstantField
  /-- The word matches no supported row (`30_encoding.md` R66). -/
  | reserved
deriving DecidableEq, Repr

/-- Decoding (`30_encoding.md` R64 to R67) under the parameters ZERO_FIELDS and SUPPORTED: the words of an entry that
SUPPORTED leaves out are reserved (`92_eei_decisions.md` D33). -/
def decode (p : Params) (w : Word) : Decoded :=
  match selectRow w with
  | none => .reserved
  | some i =>
    if p.dropped.contains i.mnemonic then .reserved
    else match p.zeroFields with
      | .ignore => .instr i
      | .refuse => if w &&& constantZeroBits i = 0#32 then .instr i else .nonzeroConstantField

/-! ### The opcode table as printed (`30_encoding.md` R64) -/

/-- A row of the list of R64: a word `w` is the instruction when `w &&& mask = bits`. -/
structure OpcodeRow where
  mnemonic : Mnemonic
  bits : Word
  mask : Word
deriving DecidableEq, Repr

/-- `(w & mask) == match`. -/
def OpcodeRow.fits (r : OpcodeRow) (w : Word) : Bool := w &&& r.mask == r.bits

/-- Rows ADD to BNE. -/
def opcodeRows1 : List OpcodeRow := [
  ⟨.ADD, 0x00000020#32, 0xFC00003F#32⟩,
  ⟨.ADDI, 0x20000000#32, 0xFC000000#32⟩,
  ⟨.ADDIU, 0x24000000#32, 0xFC000000#32⟩,
  ⟨.ADDU, 0x00000021#32, 0xFC0007FF#32⟩,
  ⟨.AND, 0x00000024#32, 0xFC0007FF#32⟩,
  ⟨.ANDI, 0x30000000#32, 0xFC000000#32⟩,
  ⟨.BEQ, 0x10000000#32, 0xFC000000#32⟩,
  ⟨.BGEZ, 0x04010000#32, 0xFC1F0000#32⟩,
  ⟨.BGEZAL, 0x04110000#32, 0xFC1F0000#32⟩,
  ⟨.BGTZ, 0x1C000000#32, 0xFC1F0000#32⟩,
  ⟨.BLEZ, 0x18000000#32, 0xFC1F0000#32⟩,
  ⟨.BLTZ, 0x04000000#32, 0xFC1F0000#32⟩,
  ⟨.BLTZAL, 0x04100000#32, 0xFC1F0000#32⟩,
  ⟨.BNE, 0x14000000#32, 0xFC000000#32⟩]

/-- Rows BREAK to LW. -/
def opcodeRows2 : List OpcodeRow := [
  ⟨.BREAK, 0x0000000D#32, 0xFC00003F#32⟩,
  ⟨.DIV, 0x0000001A#32, 0xFC00FFFF#32⟩,
  ⟨.DIVU, 0x0000001B#32, 0xFC00FFFF#32⟩,
  ⟨.J, 0x08000000#32, 0xFC000000#32⟩,
  ⟨.JAL, 0x0C000000#32, 0xFC000000#32⟩,
  ⟨.JALR, 0x00000009#32, 0xFC1F07FF#32⟩,
  ⟨.JR, 0x00000008#32, 0xFC1FFFFF#32⟩,
  ⟨.LB, 0x80000000#32, 0xFC000000#32⟩,
  ⟨.LBU, 0x90000000#32, 0xFC000000#32⟩,
  ⟨.LH, 0x84000000#32, 0xFC000000#32⟩,
  ⟨.LHU, 0x94000000#32, 0xFC000000#32⟩,
  ⟨.LUI, 0x3C000000#32, 0xFC000000#32⟩,
  ⟨.LW, 0x8C000000#32, 0xFC000000#32⟩]

/-- Rows MFHI to SLT. -/
def opcodeRows3 : List OpcodeRow := [
  ⟨.MFHI, 0x00000010#32, 0xFFFF07FF#32⟩,
  ⟨.MFLO, 0x00000012#32, 0xFFFF07FF#32⟩,
  ⟨.MTHI, 0x00000011#32, 0xFC1FFFFF#32⟩,
  ⟨.MTLO, 0x00000013#32, 0xFC1FFFFF#32⟩,
  ⟨.MULT, 0x00000018#32, 0xFC00FFFF#32⟩,
  ⟨.MULTU, 0x00000019#32, 0xFC00FFFF#32⟩,
  ⟨.NOR, 0x00000027#32, 0xFC0007FF#32⟩,
  ⟨.OR, 0x00000025#32, 0xFC0007FF#32⟩,
  ⟨.ORI, 0x34000000#32, 0xFC000000#32⟩,
  ⟨.SB, 0xA0000000#32, 0xFC000000#32⟩,
  ⟨.SH, 0xA4000000#32, 0xFC000000#32⟩,
  ⟨.SLL, 0x00000000#32, 0xFC00003F#32⟩,
  ⟨.SLLV, 0x00000004#32, 0xFC00003F#32⟩,
  ⟨.SLT, 0x0000002A#32, 0xFC0007FF#32⟩]

/-- Rows SLTI to XORI. -/
def opcodeRows4 : List OpcodeRow := [
  ⟨.SLTI, 0x28000000#32, 0xFC000000#32⟩,
  ⟨.SLTIU, 0x2C000000#32, 0xFC000000#32⟩,
  ⟨.SLTU, 0x0000002B#32, 0xFC0007FF#32⟩,
  ⟨.SRA, 0x00000003#32, 0xFC00003F#32⟩,
  ⟨.SRAV, 0x00000007#32, 0xFC00003F#32⟩,
  ⟨.SRL, 0x00000002#32, 0xFC00003F#32⟩,
  ⟨.SRLV, 0x00000006#32, 0xFC0007FF#32⟩,
  ⟨.SUB, 0x00000022#32, 0xFC0007FF#32⟩,
  ⟨.SUBU, 0x00000023#32, 0xFC0007FF#32⟩,
  ⟨.SW, 0xAC000000#32, 0xFC000000#32⟩,
  ⟨.SYSCALL, 0x0000000C#32, 0xFC00003F#32⟩,
  ⟨.XOR, 0x00000026#32, 0xFC00003F#32⟩,
  ⟨.XORI, 0x38000000#32, 0xFC000000#32⟩]

/-- The 54 rows. -/
def opcodeRows : List OpcodeRow := opcodeRows1 ++ opcodeRows2 ++ opcodeRows3 ++ opcodeRows4

/-! ### Encoding -/

/-- An R-format word (`30_encoding.md` R51), `op = 0b000000`. -/
def wordR (rs rt rd : Reg) (sh : Shamt) (fn : BitVec 6) : Word := 0b000000#6 ++ rs ++ rt ++ rd ++ sh ++ fn

/-- An I-format word (`30_encoding.md` R52). -/
def wordI (op : BitVec 6) (rs rt : Reg) (imm : Imm16) : Word := op ++ rs ++ rt ++ imm

/-- A J-format word (`30_encoding.md` R53). -/
def wordJ (op : BitVec 6) (imm26 : Imm26) : Word := op ++ imm26

/-- The canonical word of an instruction: zero in every ignored field (`30_encoding.md` R64, R67). -/
def encode : Instr → Word
  | .add rd rs rt => wordR rs rt rd 0 0b100000#6
  | .addi rt rs imm => wordI 0b001000#6 rs rt imm
  | .addiu rt rs imm => wordI 0b001001#6 rs rt imm
  | .addu rd rs rt => wordR rs rt rd 0 0b100001#6
  | .and rd rs rt => wordR rs rt rd 0 0b100100#6
  | .andi rt rs imm => wordI 0b001100#6 rs rt imm
  | .beq rs rt imm => wordI 0b000100#6 rs rt imm
  | .bgez rs imm => wordI 0b000001#6 rs 0b00001#5 imm
  | .bgezal rs imm => wordI 0b000001#6 rs 0b10001#5 imm
  | .bgtz rs imm => wordI 0b000111#6 rs 0b00000#5 imm
  | .blez rs imm => wordI 0b000110#6 rs 0b00000#5 imm
  | .bltz rs imm => wordI 0b000001#6 rs 0b00000#5 imm
  | .bltzal rs imm => wordI 0b000001#6 rs 0b10000#5 imm
  | .bne rs rt imm => wordI 0b000101#6 rs rt imm
  | .brk => wordR 0 0 0 0 0b001101#6
  | .div rs rt => wordR rs rt 0 0 0b011010#6
  | .divu rs rt => wordR rs rt 0 0 0b011011#6
  | .j imm26 => wordJ 0b000010#6 imm26
  | .jal imm26 => wordJ 0b000011#6 imm26
  | .jalr rd rs => wordR rs 0 rd 0 0b001001#6
  | .jr rs => wordR rs 0 0 0 0b001000#6
  | .lb rt imm rs => wordI 0b100000#6 rs rt imm
  | .lbu rt imm rs => wordI 0b100100#6 rs rt imm
  | .lh rt imm rs => wordI 0b100001#6 rs rt imm
  | .lhu rt imm rs => wordI 0b100101#6 rs rt imm
  | .lui rt imm => wordI 0b001111#6 0 rt imm
  | .lw rt imm rs => wordI 0b100011#6 rs rt imm
  | .mfhi rd => wordR 0 0 rd 0 0b010000#6
  | .mflo rd => wordR 0 0 rd 0 0b010010#6
  | .mthi rs => wordR rs 0 0 0 0b010001#6
  | .mtlo rs => wordR rs 0 0 0 0b010011#6
  | .mult rs rt => wordR rs rt 0 0 0b011000#6
  | .multu rs rt => wordR rs rt 0 0 0b011001#6
  | .nor rd rs rt => wordR rs rt rd 0 0b100111#6
  | .or rd rs rt => wordR rs rt rd 0 0b100101#6
  | .ori rt rs imm => wordI 0b001101#6 rs rt imm
  | .sb rt imm rs => wordI 0b101000#6 rs rt imm
  | .sh rt imm rs => wordI 0b101001#6 rs rt imm
  | .sll rd rt sh => wordR 0 rt rd sh 0b000000#6
  | .sllv rd rt rs => wordR rs rt rd 0 0b000100#6
  | .slt rd rs rt => wordR rs rt rd 0 0b101010#6
  | .slti rt rs imm => wordI 0b001010#6 rs rt imm
  | .sltiu rt rs imm => wordI 0b001011#6 rs rt imm
  | .sltu rd rs rt => wordR rs rt rd 0 0b101011#6
  | .sra rd rt sh => wordR 0 rt rd sh 0b000011#6
  | .srav rd rt rs => wordR rs rt rd 0 0b000111#6
  | .srl rd rt sh => wordR 0 rt rd sh 0b000010#6
  | .srlv rd rt rs => wordR rs rt rd 0 0b000110#6
  | .sub rd rs rt => wordR rs rt rd 0 0b100010#6
  | .subu rd rs rt => wordR rs rt rd 0 0b100011#6
  | .sw rt imm rs => wordI 0b101011#6 rs rt imm
  | .syscall => wordR 0 0 0 0 0b001100#6
  | .xor rd rs rt => wordR rs rt rd 0 0b100110#6
  | .xori rt rs imm => wordI 0b001110#6 rs rt imm

/-! ### The host's question about one row -/

/-- The instruction the decoder reads, under the parameters of `State.reset`, from an instruction whose `nbits` low bits are
those of `w` and whose other bits are 0. Every instruction is one 32-bit word (`30_encoding.md` R50). -/
def decodeTableWord (nbits w : Nat) : Option Instr :=
  match decode Params.default (BitVec.ofNat 32 (w % 2 ^ nbits)) with
  | .instr i => some i
  | .nonzeroConstantField => none
  | .reserved => none

end Sys2Proof
end

