-- ==== Sys2Proof/Machine/Fetch.lean ====
section
/-! DEFINITION. What a step does before the instruction's own rule: the checks (1) to (4) of `60_exceptions.md` R208, in
their order. -/

namespace Sys2Proof.Machine

/-- The instruction a step runs, or the outcome of a step that runs none. -/
inductive Prepared where
  | run (i : Instr)
  | stop (o : StepOutcome)

/-- `Fetch(pc)` (`20_memory.md` R39): none when a byte is outside MEM_MAP. -/
def fetchWord (s : State) : Option Word := if s.mapped s.pc 4 then some (s.read4 s.pc) else none

/-- The instruction of a decoded word, unless it uses the register just loaded (`70_reset_and_hazards.md` R237). -/
def prepareDecoded (s : State) (w : Word) : Prepared :=
  match decode s.params w with
  | .reserved => .stop (raise .reservedInstruction w s)
  | .nonzeroConstantField => .stop (.refused .nonzeroConstantField)
  | .instr i => if loadUse s i then .stop (.refused .loadUse) else .run i

/-- Alignment of `pc`, fetch, decode, load use (`10_state.md` R17, `60_exceptions.md` R208). -/
def prepare (s : State) : Prepared :=
  if aligned 4 s.pc then
    match fetchWord s with
    | none => .stop (.refused .unmapped)
    | some w => prepareDecoded s w
  else .stop (raise .addressErrorFetch s.pc s)

/-- `s` with a word laid out at `pc` in the machine's byte order, where the next step fetches. -/
def storeWordAtPc (s : State) (w : Word) : State := s.write4 s.pc w

end Sys2Proof.Machine
end

