-- ==== Sys2Proof/Machine/Step.lean ====
section
/-! DEFINITION. One step of the machine (`10_state.md` R17), and the state the host asks for when it wants a given
instruction to run next. -/

namespace Sys2Proof.Machine

/-- One step executes one instruction (`10_state.md` R17). -/
def step (s : State) : Host.Outcome State Fault Refusal :=
  match prepare s with
  | .run i => exec i s
  | .stop o => o

/-- `s` with the instruction whose `nbits` low bits are those of `w`, its other bits 0, stored where the next step
fetches. The program comes from outside the machine (`70_reset_and_hazards.md` R232; log entry 17). -/
def State.withFetchWord (s : State) (nbits w : Nat) : State := storeWordAtPc s (BitVec.ofNat 32 (w % 2 ^ nbits))

end Sys2Proof.Machine
end

