-- ==== Sys2Proof/Safety.lean ====
section
/-! DEFINITION. The vocabulary of the claims: what one outcome did to each part of the state, the invariant of the machine,
and what a safe run is. -/

namespace Sys2Proof

open Sys2Proof.Machine

/-! ### What an outcome did -/

/-- The general registers after `x[rd] <- v`: `x[rd]` holds `v` unless `rd` is 0, every other register what it held. -/
def RegsAre (s t : State) (rd : Reg) (v : Word) : Prop :=
  ∀ r : Reg, t.readReg r = if r = rd ∧ r ≠ 0#5 then v else s.readReg r

/-- Every general register holds what it held. -/
def RegsKept (s t : State) : Prop := ∀ r : Reg, t.readReg r = s.readReg r

/-- HI and LO hold what they held. -/
def HiLoKept (s t : State) : Prop := t.hi = s.hi ∧ t.lo = s.lo

/-- Every byte of memory reads as before. -/
def MemKept (s t : State) : Prop := ∀ a : Word, t.readByte a = s.readByte a

/-- The bytes `bs` lie at `ea` and the addresses after it, modulo 2^32; every other byte of memory reads as before. -/
def MemIs (s t : State) (ea : Word) (bs : List Byte) : Prop :=
  ∀ a : Word, t.readByte a = (bs[(a - ea).toNat]?).getD (s.readByte a)

/-- `pc` moved to `npc`; `npc`, `in_delay` and `load_reg` have the values given. -/
def ControlIs (s t : State) (npc : Word) (inDelay : Bool) (loadReg : Reg) : Prop :=
  t.pc = s.npc ∧ t.npc = npc ∧ t.inDelay = inDelay ∧ t.loadReg = loadReg

/-- The model's own fields: the parameters and the platform's record are kept, and `n` draws were made. -/
def OwnKept (s t : State) (n : Nat) : Prop :=
  t.params = s.params ∧ t.lastTrap = s.lastTrap ∧ t.draws = s.draws + n

/-- The instruction answers a next state in which `x[rd]` has been written and nothing else but the program counters. -/
def SetsReg (i : Instr) (s : State) (rd : Reg) (v : Word) : Prop :=
  ∃ t, exec i s = .next t ∧ RegsAre s t rd v ∧ HiLoKept s t ∧ MemKept s t ∧
    ControlIs s t (s.npc + 4#32) false 0#5 ∧ OwnKept s t 0

/-- The same for a load: the next step knows the register. -/
def LoadsReg (i : Instr) (s : State) (rt : Reg) (v : Word) : Prop :=
  ∃ t, exec i s = .next t ∧ RegsAre s t rt v ∧ HiLoKept s t ∧ MemKept s t ∧
    ControlIs s t (s.npc + 4#32) false rt ∧ OwnKept s t 0

/-- The instruction answers a next state in which HI and LO have the values given and nothing else changed but the
program counters; `n` draws were made. -/
def SetsHiLo (i : Instr) (s : State) (hi lo : Word) (n : Nat) : Prop :=
  ∃ t, exec i s = .next t ∧ RegsKept s t ∧ t.hi = hi ∧ t.lo = lo ∧ MemKept s t ∧
    ControlIs s t (s.npc + 4#32) false 0#5 ∧ OwnKept s t n

/-- The instruction answers a next state in which the bytes lie at the address and nothing else changed but the program
counters. -/
def StoresBytes (i : Instr) (s : State) (ea : Word) (bs : List Byte) : Prop :=
  ∃ t, exec i s = .next t ∧ RegsKept s t ∧ HiLoKept s t ∧ MemIs s t ea bs ∧
    ControlIs s t (s.npc + 4#32) false 0#5 ∧ OwnKept s t 0

/-- The instruction answers a next state that is in the delay slot with `npc` as given, and nothing else changed. -/
def Transfers (i : Instr) (s : State) (npc : Word) : Prop :=
  ∃ t, exec i s = .next t ∧ RegsKept s t ∧ HiLoKept s t ∧ MemKept s t ∧ ControlIs s t npc true 0#5 ∧ OwnKept s t 0

/-- The same, with `v` written to `x[rd]`; `n` draws were made. -/
def TransfersAndLinks (i : Instr) (s : State) (npc : Word) (rd : Reg) (v : Word) (n : Nat) : Prop :=
  ∃ t, exec i s = .next t ∧ RegsAre s t rd v ∧ HiLoKept s t ∧ MemKept s t ∧ ControlIs s t npc true 0#5 ∧ OwnKept s t n

/-- The record of a trap taken in `s`. -/
def trapOf (s : State) (e : Exception) (info : Word) : TrapRecord :=
  { cause := e, epc := s.pc, inDelay := s.inDelay, info := info }

/-- With TRAP_VECTOR none the outcome is the terminal trap. -/
def TrapEnds (o : StepOutcome) (s : State) (e : Exception) (info : Word) : Prop :=
  s.params.trapVector = none → o = .fault (.trap (trapOf s e info))

/-- With TRAP_VECTOR = v the outcome is a next state at `v`, with everything else a program can see as it was. -/
def TrapGoesToVector (o : StepOutcome) (s : State) (e : Exception) (info : Word) : Prop :=
  ∀ v, s.params.trapVector = some v → ∃ t, o = .next t ∧ RegsKept s t ∧ HiLoKept s t ∧ MemKept s t ∧
    t.pc = v ∧ t.npc = v + 4#32 ∧ t.inDelay = false ∧ t.loadReg = 0#5 ∧
    t.params = s.params ∧ t.draws = s.draws ∧ t.lastTrap = some (trapOf s e info)

/-- The outcome is the exception `e` taken in `s`, under either setting of TRAP_VECTOR. -/
def Raises (o : StepOutcome) (s : State) (e : Exception) (info : Word) : Prop :=
  TrapEnds o s e info ∧ TrapGoesToVector o s e info

/-- The word is this instruction on every machine that supports its entry, whatever its other parameters. -/
def IsWordOf (w : Word) (i : Instr) : Prop := ∀ p : Params, i.mnemonic ∉ p.dropped → decode p w = .instr i

/-- The function map under `op = 0`, row by row of `fn[5:3]`; a value of `fn` that is not listed is shown as `-`
(`30_encoding.md` R62). -/
def functionMap : List (BitVec 6 × Mnemonic) :=
  [(0b000000#6, .SLL), (0b000010#6, .SRL), (0b000011#6, .SRA), (0b000100#6, .SLLV), (0b000110#6, .SRLV),
    (0b000111#6, .SRAV)] ++
  [(0b001000#6, .JR), (0b001001#6, .JALR), (0b001100#6, .SYSCALL), (0b001101#6, .BREAK)] ++
  [(0b010000#6, .MFHI), (0b010001#6, .MTHI), (0b010010#6, .MFLO), (0b010011#6, .MTLO)] ++
  [(0b011000#6, .MULT), (0b011001#6, .MULTU), (0b011010#6, .DIV), (0b011011#6, .DIVU)] ++
  [(0b100000#6, .ADD), (0b100001#6, .ADDU), (0b100010#6, .SUB), (0b100011#6, .SUBU), (0b100100#6, .AND),
    (0b100101#6, .OR), (0b100110#6, .XOR), (0b100111#6, .NOR)] ++
  [(0b101010#6, .SLT), (0b101011#6, .SLTU)]

/-- The same outcome with the next state changed by `f`. -/
def mapNext (f : State → State) : StepOutcome → StepOutcome
  | .next t => .next (f t)
  | .fault e => .fault e
  | .refused r => .refused r

/-- `s` with another memory. -/
def withMem (m : Memory) (s : State) : State := { s with mem := m }

/-- `s` with other values in HI and LO. -/
def withHiLo (h l : Word) (s : State) : State := { s with hi := h, lo := l }

/-- `MEM_MAP` holds each of the `n` bytes from `a`. -/
def AllMapped (s : State) (a : Word) (n : Nat) : Prop :=
  ∀ k < n, Region.anyHolds s.params.memMap (a + BitVec.ofNat 32 k).toNat = true

/-- `TEXT` holds none of the `n` bytes from `a`. -/
def NoneInText (s : State) (a : Word) (n : Nat) : Prop :=
  ∀ k < n, Region.anyHolds s.params.text (a + BitVec.ofNat 32 k).toNat = false

/-- The address a load or store reaches, `x[rs] + sext_16(imm)` modulo 2^32 (`20_memory.md` R32). -/
def addressOf (s : State) (rs : Reg) (imm : Imm16) : Word := s.readReg rs + imm.signExtend 32

/-- The address a taken branch transfers to (`43_branch_jump.md` R156). -/
def targetOf (s : State) (imm : Imm16) : Word :=
  s.pc + (if s.params.branchBase = .four then 4#32 else 0#32) + imm.signExtend 32 * 4#32

/-! ### The invariant -/

/-- What holds of every state a run reaches. -/
structure Inv (s : State) : Prop where
  /-- Memory has its canonical form. -/
  memory : Memory.Wf s.mem
  /-- Only addresses of MEM_MAP have been given a value. -/
  mapped : ∀ c ∈ s.mem, Region.anyHolds s.params.memMap c.1 = true
  /-- The parameters are as R4 asks. -/
  params : s.params.Wf
  /-- Outside a delay slot the next instruction in memory order follows (`43_branch_jump.md` R155). -/
  straight : s.inDelay = false → s.npc = s.pc + 4#32
  /-- A delay slot is at a multiple of 4. -/
  slotAligned : s.inDelay = true → s.pc.toNat % 4 = 0
  /-- The step after a load is not in a delay slot. -/
  loadNotInSlot : s.loadReg ≠ 0#5 → s.inDelay = false

/-! ### Runs -/

/-- How a run of at most so many steps ends (`60_exceptions.md` R218). -/
inductive RunEnd where
  /-- END_OF_RUN holds (`70_reset_and_hazards.md` R234). -/
  | ended (s : State)
  /-- A terminal trap. -/
  | trapped (f : Fault)
  /-- The spec gives the step no meaning: no successful run. -/
  | refused (r : Refusal)
  /-- Still running. -/
  | running (s : State)

/-- Run until END_OF_RUN, the predicate the platform supplies, holds, for at most so many steps (R234, R241). -/
def runUntil (endOfRun : State → Bool) : Nat → State → RunEnd
  | 0, s => if endOfRun s then .ended s else .running s
  | k + 1, s =>
    if endOfRun s then .ended s
    else match step s with
      | .next t => runUntil endOfRun k t
      | .fault f => .trapped f
      | .refused r => .refused r

/-- A safe run: it reaches END_OF_RUN, with no terminal trap and no refusal on the way. -/
def SafeRun (endOfRun : State → Bool) (k : Nat) (s : State) : Prop := ∃ t, runUntil endOfRun k s = .ended t

/-- The start state of a run (`70_reset_and_hazards.md` R230 to R232): the reset state, with the program and the initial data
laid out by the platform. -/
def startState (p : Params) (image : List Host.Cell) : State :=
  { State.resetWith p with mem := image.foldl (fun m c => m.insert c.1 c.2) [] }

end Sys2Proof
end

