-- ==== Sys2Proof/Certificates/Slice0/Obligations.lean ====
section
/-! DEFINITION. The statements for the provers. The predicates they are written with (`SetsReg`, `LoadsReg`, `SetsHiLo`,
`StoresBytes`, `Transfers`, `TransfersAndLinks`, `Raises`, `IsWordOf`, `Inv`) stand in `Sys2Proof/Safety.lean`; each of the
first six says that `exec` answers a next state, and everything that state holds. Three of the clauses they share, called the
shared frame below, are no part of the instruction's own rule: that a write to `$0` is discarded (R11, the spec's decision D2;
each rule repeats it as "rd = 0 discards"), that `pc` goes to `npc` and `npc` 4 further (R15, R17, decision D7), and that the
model's own fields are kept, but for the draws counted (log entries 1, 10 and 12). So every statement with one of these six has
basis 'derived'; the last three statements, which say what their rules say and nothing of that frame, have basis 'stated'. -/

open Sys2Proof Sys2Proof.Machine

/-! ### Encoding -/

/-- Decoding the canonical word of an instruction gives it back, with every operand at every value, on every machine that
supports its entry (`30_encoding.md` R64, R67, R71). -/
def Obligations.DecodeOfEncode : Prop := ∀ i : Instr, IsWordOf (encode i) i

/-- The decoder agrees with the printed list of R64: a word that decodes to an instruction fits the row of its mnemonic, and
a word that fits a row decodes to an instruction of that mnemonic. -/
def Obligations.DecodingFollowsOpcodeRows : Prop :=
  ∀ (p : Params) (w : Word), p.zeroFields = .refuse → p.dropped = [] →
    (∀ i, decode p w = .instr i → ∃ r ∈ opcodeRows, r.mnemonic = i.mnemonic ∧ r.fits w = true) ∧
    ∀ r ∈ opcodeRows, r.fits w = true → ∃ i, decode p w = .instr i ∧ i.mnemonic = r.mnemonic

/-- "With these masks no word matches two rows" (R64). -/
def Obligations.NoWordFitsTwoRows : Prop :=
  ∀ (w : Word), ∀ q ∈ opcodeRows, ∀ r ∈ opcodeRows, q.fits w = true → r.fits w = true → q = r

/-- The `op` values, the `fn` values under `op = 0` and the branch-group `rt` values that the maps of R61 to R63 show as `-`
are reserved, whatever the other bits and the parameters. That is all a word can be reserved for while every entry is
supported. The exception such a word raises is the spec's decision D20. -/
def Obligations.ReservedWordsAreThoseOfTheMaps : Prop :=
  ∀ (p : Params) (w : Word), p.dropped = [] →
    (decode p w = .reserved ↔
      (opOf w ∈ [0x10#6, 0x11#6, 0x12#6, 0x13#6, 0x14#6, 0x15#6, 0x16#6, 0x17#6, 0x18#6, 0x19#6, 0x1A#6, 0x1B#6,
          0x1C#6, 0x1D#6, 0x1E#6, 0x1F#6, 0x22#6, 0x26#6, 0x27#6, 0x2A#6, 0x2C#6, 0x2D#6, 0x2E#6, 0x2F#6,
          0x30#6, 0x31#6, 0x32#6, 0x33#6, 0x34#6, 0x35#6, 0x36#6, 0x37#6, 0x38#6, 0x39#6, 0x3A#6, 0x3B#6,
          0x3C#6, 0x3D#6, 0x3E#6, 0x3F#6] ∨
        (opOf w = 0#6 ∧
          fnOf w ∈ [0x01#6, 0x05#6, 0x0A#6, 0x0B#6, 0x0E#6, 0x0F#6, 0x14#6, 0x15#6, 0x16#6, 0x17#6, 0x1C#6, 0x1D#6,
            0x1E#6, 0x1F#6, 0x28#6, 0x29#6, 0x2C#6, 0x2D#6, 0x2E#6, 0x2F#6, 0x30#6, 0x31#6, 0x32#6, 0x33#6,
            0x34#6, 0x35#6, 0x36#6, 0x37#6, 0x38#6, 0x39#6, 0x3A#6, 0x3B#6, 0x3C#6, 0x3D#6, 0x3E#6, 0x3F#6]) ∨
        (opOf w = 1#6 ∧ rtOf w ∉ [0b00000#5, 0b00001#5, 0b10000#5, 0b10001#5])))

/-- A non-zero value in the constant-zero field (`sh`, `rd`, `rt` or `rs`, printed `5'h0`) of a word that is otherwise an
instruction's canonical word: under ZERO_FIELDS = refuse the word is no instruction, under ignore it is the instruction
(R65, decision D21). -/
def Obligations.NonzeroConstantFields : Prop :=
  ∀ (p : Params) (i : Instr) (z : Word), i.mnemonic ∉ p.dropped → z ≠ 0#32 → z &&& ~~~constantZeroBits i = 0#32 →
    (p.zeroFields = .refuse → decode p (encode i ||| z) = .nonzeroConstantField) ∧
    (p.zeroFields = .ignore → decode p (encode i ||| z) = .instr i)

/-- The words of an entry that SUPPORTED leaves out are reserved, and no other entry's words are affected (R4, decision
D33). -/
def Obligations.UnsupportedEntriesAreReserved : Prop :=
  ∀ (p : Params) (w : Word) (i : Instr), decode { p with dropped := [] } w = .instr i →
    decode p w = if i.mnemonic ∈ p.dropped then .reserved else .instr i

/-- Words of `95_test_vectors.md` sections 2.1 and 2.2 decode as it says. -/
def Obligations.SampleWordsDecode : Prop :=
  IsWordOf 0x2022FFFF#32 (.addi 2#5 1#5 0xFFFF#16) ∧ IsWordOf 0x00411807#32 (.srav 3#5 1#5 2#5) ∧
  IsWordOf 0x0022001A#32 (.div 1#5 2#5) ∧ IsWordOf 0x0420FFFC#32 (.bltz 1#5 0xFFFC#16) ∧
  IsWordOf 0x0040F809#32 (.jalr 31#5 2#5) ∧ IsWordOf 0x8C22FFFC#32 (.lw 2#5 0xFFFC#16 1#5) ∧
  IsWordOf 0x03FFFFCD#32 .brk ∧
  decode Params.default 0x88220000#32 = .reserved ∧ decode Params.default 0x00221861#32 = .nonzeroConstantField

/-! ### Registers and memory -/

/-- `x[0]` reads as 0 and a write to it is discarded; a write to another register is seen by that register alone (R11; that
register 0 is hardwired is the spec's decision D2). -/
def Obligations.RegisterWritesAndRegisterZero : Prop :=
  ∀ (s : State) (r q : Reg) (v : Word),
    s.readReg 0#5 = 0#32 ∧ s.writeReg 0#5 v = s ∧
    (s.writeReg r v).readReg q = if q = 0#5 then 0#32 else if q = r then v else s.readReg q

/-- A value written is read back under either byte order, a write reaches no byte outside its width, and an access of another
width sees the bytes as R34 and R35 lay them out (their byte orders are general knowledge by the spec's own mark). -/
def Obligations.MemoryReadAfterWrite : Prop :=
  ∀ (s : State) (a : Word),
    (∀ v : Byte, (s.write1 a v).read1 a = v ∧ ∀ b : Word, b ≠ a → (s.write1 a v).readByte b = s.readByte b) ∧
    (∀ v : Half, (s.write2 a v).read2 a = v ∧ ∀ b : Word, 2 ≤ (b - a).toNat →
      (s.write2 a v).readByte b = s.readByte b) ∧
    (∀ v : Word, (s.write4 a v).read4 a = v ∧ ∀ b : Word, 4 ≤ (b - a).toNat →
      (s.write4 a v).readByte b = s.readByte b) ∧
    (s.params.endian = .big → (s.write4 a 0x11223344#32).read1 a = 0x11#8 ∧
      (s.write4 a 0x11223344#32).read2 (a + 2#32) = 0x3344#16) ∧
    (s.params.endian = .little → (s.write4 a 0x11223344#32).read1 a = 0x44#8 ∧
      (s.write4 a 0x11223344#32).read2 (a + 2#32) = 0x1122#16)

/-! ### Arithmetic, logic, comparison (`40_arith_logic.md`) -/

/-- ADD and SUB in full (R104, R118). The overflow condition is the sign-bit form of their pseudocode, which R102 marks as
the spec's decision D12; what an exception does is decision D22. -/
def Obligations.AddAndSubRaiseOnOverflow : Prop :=
  ∀ (s : State) (rd rs rt : Reg) (sh : Shamt) (a b : Word), a = s.readReg rs → b = s.readReg rt →
    IsWordOf (wordR rs rt rd sh 0b100000#6) (.add rd rs rt) ∧ IsWordOf (wordR rs rt rd 0#5 0b100010#6) (.sub rd rs rt) ∧
    (¬ (a.msb = b.msb ∧ (a + b).msb ≠ a.msb) → SetsReg (.add rd rs rt) s rd (a + b)) ∧
    (a.msb = b.msb ∧ (a + b).msb ≠ a.msb → Raises (exec (.add rd rs rt) s) s .overflow s.pc) ∧
    (¬ (a.msb ≠ b.msb ∧ (a - b).msb ≠ a.msb) → SetsReg (.sub rd rs rt) s rd (a - b)) ∧
    (a.msb ≠ b.msb ∧ (a - b).msb ≠ a.msb → Raises (exec (.sub rd rs rt) s) s .overflow s.pc)

/-- ADDI in full (R105). That ADDI raises is the spec's decision D12. -/
def Obligations.AddiRaisesOnOverflow : Prop :=
  ∀ (s : State) (rt rs : Reg) (imm : Imm16) (a b : Word), a = s.readReg rs → b = imm.signExtend 32 →
    IsWordOf (wordI 0b001000#6 rs rt imm) (.addi rt rs imm) ∧
    (¬ (a.msb = b.msb ∧ (a + b).msb ≠ a.msb) → SetsReg (.addi rt rs imm) s rt (a + b)) ∧
    (a.msb = b.msb ∧ (a + b).msb ≠ a.msb → Raises (exec (.addi rt rs imm) s) s .overflow s.pc)

/-- ADDU and SUBU in full (R107, R119), with the shared frame: the exact sum or difference modulo 2^32, never an exception. -/
def Obligations.AdduAndSubuWrap : Prop :=
  ∀ (s : State) (rd rs rt : Reg),
    IsWordOf (wordR rs rt rd 0#5 0b100001#6) (.addu rd rs rt) ∧
    IsWordOf (wordR rs rt rd 0#5 0b100011#6) (.subu rd rs rt) ∧
    SetsReg (.addu rd rs rt) s rd (BitVec.ofNat 32 ((s.readReg rs).toNat + (s.readReg rt).toNat)) ∧
    SetsReg (.subu rd rs rt) s rd (BitVec.ofInt 32 ((s.readReg rs).toNat - (s.readReg rt).toNat))

/-- The addition and subtraction law (R101): where no overflow is raised, ADD does what ADDU does, SUB what SUBU does, and
ADDI what ADDIU does with the same, sign-extended, immediate; the sum of an immediate form is that of the register form. -/
def Obligations.TrappingAndWrappingSumsAgree : Prop :=
  ∀ (s : State) (r rs rt : Reg) (imm : Imm16) (t : State), s.params.trapVector = none → s.params.immExtU = .sign →
    (exec (.add r rs rt) s = .next t → exec (.addu r rs rt) s = .next t) ∧
    (exec (.sub r rs rt) s = .next t → exec (.subu r rs rt) s = .next t) ∧
    (exec (.addi r rs imm) s = .next t → exec (.addiu r rs imm) s = .next t) ∧
    (s.readReg rt = imm.signExtend 32 → exec (.addiu r rs imm) s = exec (.addu r rs rt) s)

/-- The two forms of the overflow condition are equivalent (R102, decision D12): the exact result is outside the signed range
exactly when the sign bits say so. -/
def Obligations.OverflowIsReadOffTheSigns : Prop :=
  ∀ a b : Word,
    (addOverflows a b = true ↔ a.msb = b.msb ∧ (a + b).msb ≠ a.msb) ∧
    (subOverflows a b = true ↔ a.msb ≠ b.msb ∧ (a - b).msb ≠ a.msb)

/-- ADDIU and SLTIU in full (R106, R116), with the shared frame, under both values of IMM_EXT_U: the extension of the
immediate is the spec's decision D5 (R57). -/
def Obligations.AddiuAndSltiu : Prop :=
  ∀ (s : State) (rt rs : Reg) (imm : Imm16) (b : Word),
    b = (if s.params.immExtU = .sign then imm.signExtend 32 else imm.zeroExtend 32) →
    IsWordOf (wordI 0b001001#6 rs rt imm) (.addiu rt rs imm) ∧
    IsWordOf (wordI 0b001011#6 rs rt imm) (.sltiu rt rs imm) ∧
    SetsReg (.addiu rt rs imm) s rt (BitVec.ofNat 32 ((s.readReg rs).toNat + b.toNat)) ∧
    SetsReg (.sltiu rt rs imm) s rt (if (s.readReg rs).ult b then 1#32 else 0#32)

/-- AND, OR, NOR and XOR in full, bit by bit (R108, R111, R112, R120), with the shared frame. -/
def Obligations.BitwiseRegisterForms : Prop :=
  ∀ (s : State) (rd rs rt : Reg) (sh : Shamt),
    IsWordOf (wordR rs rt rd 0#5 0b100100#6) (.and rd rs rt) ∧ IsWordOf (wordR rs rt rd 0#5 0b100101#6) (.or rd rs rt) ∧
    IsWordOf (wordR rs rt rd 0#5 0b100111#6) (.nor rd rs rt) ∧ IsWordOf (wordR rs rt rd sh 0b100110#6) (.xor rd rs rt) ∧
    ∃ vAnd vOr vNor vXor : Word,
      SetsReg (.and rd rs rt) s rd vAnd ∧ SetsReg (.or rd rs rt) s rd vOr ∧
      SetsReg (.nor rd rs rt) s rd vNor ∧ SetsReg (.xor rd rs rt) s rd vXor ∧
      ∀ k < 32,
        vAnd.getLsbD k = ((s.readReg rs).getLsbD k && (s.readReg rt).getLsbD k) ∧
        vOr.getLsbD k = ((s.readReg rs).getLsbD k || (s.readReg rt).getLsbD k) ∧
        vNor.getLsbD k = !((s.readReg rs).getLsbD k || (s.readReg rt).getLsbD k) ∧
        vXor.getLsbD k = ((s.readReg rs).getLsbD k != (s.readReg rt).getLsbD k)

/-- ANDI, ORI and XORI in full (R109, R113, R121), by half words: the immediate is zero-extended, which is the spec's
decision D4 (R56). -/
def Obligations.BitwiseImmediateForms : Prop :=
  ∀ (s : State) (rt rs : Reg) (imm hi lo : Imm16), s.readReg rs = hi ++ lo →
    IsWordOf (wordI 0b001100#6 rs rt imm) (.andi rt rs imm) ∧ IsWordOf (wordI 0b001101#6 rs rt imm) (.ori rt rs imm) ∧
    IsWordOf (wordI 0b001110#6 rs rt imm) (.xori rt rs imm) ∧
    SetsReg (.andi rt rs imm) s rt (0#16 ++ (lo &&& imm)) ∧ SetsReg (.ori rt rs imm) s rt (hi ++ (lo ||| imm)) ∧
    SetsReg (.xori rt rs imm) s rt (hi ++ (lo ^^^ imm))

/-- LUI in full (R110), with the shared frame: the immediate in the upper half, zeros below; its Source field is ignored. -/
def Obligations.LuiLoadsTheUpperHalf : Prop :=
  ∀ (s : State) (rt ignored : Reg) (imm : Imm16),
    IsWordOf (wordI 0b001111#6 ignored rt imm) (.lui rt imm) ∧
    SetsReg (.lui rt imm) s rt (BitVec.ofNat 32 (imm.toNat * 65536))

/-- SLT, SLTI and SLTU in full (R114, R115, R117), with the shared frame. -/
def Obligations.SetOnLessThan : Prop :=
  ∀ (s : State) (rd rs rt : Reg) (imm : Imm16),
    IsWordOf (wordR rs rt rd 0#5 0b101010#6) (.slt rd rs rt) ∧
    IsWordOf (wordI 0b001010#6 rs rt imm) (.slti rt rs imm) ∧
    IsWordOf (wordR rs rt rd 0#5 0b101011#6) (.sltu rd rs rt) ∧
    SetsReg (.slt rd rs rt) s rd (if (s.readReg rs).slt (s.readReg rt) then 1#32 else 0#32) ∧
    SetsReg (.slti rt rs imm) s rt (if (s.readReg rs).toInt < imm.toInt then 1#32 else 0#32) ∧
    SetsReg (.sltu rd rs rt) s rd (if (s.readReg rs).ult (s.readReg rt) then 1#32 else 0#32)

/-! ### Shifts (`41_shift.md`) -/

/-- SLL, SRL and SRA in full (R131, R133, R135), with the shared frame, as multiplication and rounded division by 2^sh. That
their Source field, printed `5bit`, is ignored is the spec's inference (R67, `90_conflicts.md` C7). -/
def Obligations.ShiftsByConstant : Prop :=
  ∀ (s : State) (rd rt ignored : Reg) (sh : Shamt),
    IsWordOf (wordR ignored rt rd sh 0b000000#6) (.sll rd rt sh) ∧
    IsWordOf (wordR ignored rt rd sh 0b000010#6) (.srl rd rt sh) ∧
    IsWordOf (wordR ignored rt rd sh 0b000011#6) (.sra rd rt sh) ∧
    SetsReg (.sll rd rt sh) s rd (BitVec.ofNat 32 ((s.readReg rt).toNat * 2 ^ sh.toNat)) ∧
    SetsReg (.srl rd rt sh) s rd (BitVec.ofNat 32 ((s.readReg rt).toNat / 2 ^ sh.toNat)) ∧
    SetsReg (.sra rd rt sh) s rd (BitVec.ofInt 32 ((s.readReg rt).toInt / 2 ^ sh.toNat))

/-- SLLV, SRLV and SRAV in full (R132, R134, R136): the count is `x[rs]` modulo 32, which is the spec's decision D13 (R130);
SLLV and SRAV ignore their Shift field, SRLV has zero there. -/
def Obligations.ShiftsByRegister : Prop :=
  ∀ (s : State) (rd rt rs : Reg) (sh : Shamt) (n : Nat), n = (s.readReg rs).toNat % 32 →
    IsWordOf (wordR rs rt rd sh 0b000100#6) (.sllv rd rt rs) ∧
    IsWordOf (wordR rs rt rd 0#5 0b000110#6) (.srlv rd rt rs) ∧
    IsWordOf (wordR rs rt rd sh 0b000111#6) (.srav rd rt rs) ∧
    SetsReg (.sllv rd rt rs) s rd (BitVec.ofNat 32 ((s.readReg rt).toNat * 2 ^ n)) ∧
    SetsReg (.srlv rd rt rs) s rd (BitVec.ofNat 32 ((s.readReg rt).toNat / 2 ^ n)) ∧
    SetsReg (.srav rd rt rs) s rd (BitVec.ofInt 32 ((s.readReg rt).toInt / 2 ^ n))

/-! ### Multiply, divide, HI and LO (`42_muldiv.md`) -/

/-- MFHI, MFLO, MTHI and MTLO in full (R145 to R148), with the shared frame. -/
def Obligations.HiLoMoves : Prop :=
  ∀ (s : State) (rd rs : Reg),
    IsWordOf (wordR 0#5 0#5 rd 0#5 0b010000#6) (.mfhi rd) ∧ IsWordOf (wordR 0#5 0#5 rd 0#5 0b010010#6) (.mflo rd) ∧
    IsWordOf (wordR rs 0#5 0#5 0#5 0b010001#6) (.mthi rs) ∧ IsWordOf (wordR rs 0#5 0#5 0#5 0b010011#6) (.mtlo rs) ∧
    SetsReg (.mfhi rd) s rd s.hi ∧ SetsReg (.mflo rd) s rd s.lo ∧
    SetsHiLo (.mthi rs) s (s.readReg rs) s.lo 0 ∧ SetsHiLo (.mtlo rs) s s.hi (s.readReg rs) 0

/-- MULT and MULTU (R149, R150), under both values of MULT_HI: HI and LO together are the exact product, signed or unsigned,
which for HI is the spec's decision D14 (R141). With MULT_HI = any, LO is still the lower half and HI is the next draw: that the draw
is `Config.anyWord` of the counter of draws, and that the counter goes on by one, is the model's choice (log entry 10). -/
def Obligations.MultiplyGivesTheExactProduct : Prop :=
  ∀ (s : State) (rs rt : Reg),
    IsWordOf (wordR rs rt 0#5 0#5 0b011000#6) (.mult rs rt) ∧ IsWordOf (wordR rs rt 0#5 0#5 0b011001#6) (.multu rs rt) ∧
    (∃ hi lo : Word, (hi ++ lo).toInt = (s.readReg rs).toInt * (s.readReg rt).toInt ∧
      SetsHiLo (.mult rs rt) s (if s.params.multHi = .upper then hi else Config.anyWord s.draws) lo
        (if s.params.multHi = .upper then 0 else 1)) ∧
    (∃ hi lo : Word, (hi ++ lo).toNat = (s.readReg rs).toNat * (s.readReg rt).toNat ∧
      SetsHiLo (.multu rs rt) s (if s.params.multHi = .upper then hi else Config.anyWord s.draws) lo
        (if s.params.multHi = .upper then 0 else 1))

/-- DIVU in full (R144). By zero, LO and HI are two draws: no exception, no value (decision D16; log entry 10). -/
def Obligations.DivuQuotientAndRemainder : Prop :=
  ∀ (s : State) (rs rt : Reg),
    IsWordOf (wordR rs rt 0#5 0#5 0b011011#6) (.divu rs rt) ∧
    (s.readReg rt ≠ 0#32 → SetsHiLo (.divu rs rt) s (s.readReg rs % s.readReg rt) (s.readReg rs / s.readReg rt) 0) ∧
    (s.readReg rt = 0#32 →
      SetsHiLo (.divu rs rt) s (Config.anyWord (s.draws + 1)) (Config.anyWord s.draws) 2)

/-- DIV in full (R143): truncation is decision D15, division by zero D16, -2^31 by -1 D17 under both values of DIV_OVF.
Which draws HI and LO take, and that two are counted, is the model's choice (log entry 10). -/
def Obligations.DivQuotientAndRemainder : Prop :=
  ∀ (s : State) (rs rt : Reg) (a b : Word), a = s.readReg rs → b = s.readReg rt →
    IsWordOf (wordR rs rt 0#5 0#5 0b011010#6) (.div rs rt) ∧
    (b = 0#32 → SetsHiLo (.div rs rt) s (Config.anyWord (s.draws + 1)) (Config.anyWord s.draws) 2) ∧
    (a.toInt = -2147483648 → b.toInt = -1 → s.params.divOvf = .wrap →
      SetsHiLo (.div rs rt) s 0x00000000#32 0x80000000#32 0) ∧
    (a.toInt = -2147483648 → b.toInt = -1 → s.params.divOvf = .any →
      SetsHiLo (.div rs rt) s (Config.anyWord (s.draws + 1)) (Config.anyWord s.draws) 2) ∧
    (b ≠ 0#32 → ¬ (a.toInt = -2147483648 ∧ b.toInt = -1) →
      ∃ hi lo : Word, SetsHiLo (.div rs rt) s hi lo 0 ∧ lo.toInt = a.toInt.tdiv b.toInt ∧
        hi.toInt = a.toInt - a.toInt.tdiv b.toInt * b.toInt)

/-- The division law (R142, decision D15): dividend = quotient · divisor + remainder, the remainder is smaller than the
divisor in magnitude and has the dividend's sign; for DIV outside its overflow case, and for DIVU. -/
def Obligations.DivisionLaw : Prop :=
  ∀ (s : State) (rs rt : Reg) (a b : Word), a = s.readReg rs → b = s.readReg rt → b ≠ 0#32 →
    (¬ (a.toInt = -2147483648 ∧ b.toInt = -1) →
      ∃ t, exec (.div rs rt) s = .next t ∧ a.toInt = t.lo.toInt * b.toInt + t.hi.toInt ∧
        t.hi.toInt.natAbs < b.toInt.natAbs ∧ (0 ≤ a.toInt → 0 ≤ t.hi.toInt) ∧ (a.toInt ≤ 0 → t.hi.toInt ≤ 0)) ∧
    ∃ t, exec (.divu rs rt) s = .next t ∧ a.toNat = t.lo.toNat * b.toNat + t.hi.toNat ∧ t.hi.toNat < b.toNat

/-! ### Branches and jumps (`43_branch_jump.md`) -/

/-- BEQ and BNE outside a delay slot (R159, R166, with the delayed transfer of R155, decision D7, and the target of R156,
decisions D4, D6). -/
def Obligations.EqualityBranches : Prop :=
  ∀ (s : State) (rs rt : Reg) (imm : Imm16),
    IsWordOf (wordI 0b000100#6 rs rt imm) (.beq rs rt imm) ∧ IsWordOf (wordI 0b000101#6 rs rt imm) (.bne rs rt imm) ∧
    (s.inDelay = false → s.readReg rs = s.readReg rt →
      Transfers (.beq rs rt imm) s (targetOf s imm) ∧ Transfers (.bne rs rt imm) s (s.npc + 4#32)) ∧
    (s.inDelay = false → s.readReg rs ≠ s.readReg rt →
      Transfers (.beq rs rt imm) s (s.npc + 4#32) ∧ Transfers (.bne rs rt imm) s (targetOf s imm))

/-- BGEZ, BGTZ, BLEZ and BLTZ outside a delay slot (R160, R162, R163, R164; decisions D4, D6, D7 as in EqualityBranches). -/
def Obligations.SignBranches : Prop :=
  ∀ (s : State) (rs : Reg) (imm : Imm16) (v : Word), v = s.readReg rs →
    IsWordOf (wordI 0b000001#6 rs 0b00001#5 imm) (.bgez rs imm) ∧ IsWordOf (wordI 0b000111#6 rs 0#5 imm) (.bgtz rs imm) ∧
    IsWordOf (wordI 0b000110#6 rs 0#5 imm) (.blez rs imm) ∧ IsWordOf (wordI 0b000001#6 rs 0b00000#5 imm) (.bltz rs imm) ∧
    (s.inDelay = false → v.msb = false →
      Transfers (.bgez rs imm) s (targetOf s imm) ∧ Transfers (.bltz rs imm) s (s.npc + 4#32)) ∧
    (s.inDelay = false → v.msb = true →
      Transfers (.bgez rs imm) s (s.npc + 4#32) ∧ Transfers (.bltz rs imm) s (targetOf s imm)) ∧
    (s.inDelay = false → v.msb = false ∧ v ≠ 0#32 →
      Transfers (.bgtz rs imm) s (targetOf s imm) ∧ Transfers (.blez rs imm) s (s.npc + 4#32)) ∧
    (s.inDelay = false → v.msb = true ∨ v = 0#32 →
      Transfers (.bgtz rs imm) s (s.npc + 4#32) ∧ Transfers (.blez rs imm) s (targetOf s imm))

/-- BGEZAL outside a delay slot (R161): taken, it links; not taken, `$31` is as LINK_NOT_TAKEN says, by default a draw
between its old value and the link (decision D9, log entry 11). -/
def Obligations.BgezalLinks : Prop :=
  ∀ (s : State) (rs : Reg) (imm : Imm16), s.inDelay = false →
    IsWordOf (wordI 0b000001#6 rs 0b10001#5 imm) (.bgezal rs imm) ∧
    ((s.readReg rs).msb = false →
      TransfersAndLinks (.bgezal rs imm) s (targetOf s imm) 31#5 (s.pc + 8#32) 0) ∧
    ((s.readReg rs).msb = true → s.params.linkNotTaken = .draw →
      TransfersAndLinks (.bgezal rs imm) s (s.npc + 4#32) 31#5
        (if Config.anyLink s.draws then s.pc + 8#32 else s.readReg 31#5) 1) ∧
    ((s.readReg rs).msb = true → s.params.linkNotTaken = .always →
      TransfersAndLinks (.bgezal rs imm) s (s.npc + 4#32) 31#5 (s.pc + 8#32) 0) ∧
    ((s.readReg rs).msb = true → s.params.linkNotTaken = .onlyIfTaken →
      Transfers (.bgezal rs imm) s (s.npc + 4#32))

/-- BLTZAL outside a delay slot (R165), as BGEZAL with the opposite condition (decision D9, log entry 11). -/
def Obligations.BltzalLinks : Prop :=
  ∀ (s : State) (rs : Reg) (imm : Imm16), s.inDelay = false →
    IsWordOf (wordI 0b000001#6 rs 0b10000#5 imm) (.bltzal rs imm) ∧
    ((s.readReg rs).msb = true →
      TransfersAndLinks (.bltzal rs imm) s (targetOf s imm) 31#5 (s.pc + 8#32) 0) ∧
    ((s.readReg rs).msb = false → s.params.linkNotTaken = .draw →
      TransfersAndLinks (.bltzal rs imm) s (s.npc + 4#32) 31#5
        (if Config.anyLink s.draws then s.pc + 8#32 else s.readReg 31#5) 1) ∧
    ((s.readReg rs).msb = false → s.params.linkNotTaken = .always →
      TransfersAndLinks (.bltzal rs imm) s (s.npc + 4#32) 31#5 (s.pc + 8#32) 0) ∧
    ((s.readReg rs).msb = false → s.params.linkNotTaken = .onlyIfTaken →
      Transfers (.bltzal rs imm) s (s.npc + 4#32))

/-- J and JAL outside a delay slot (R167, R168): the target is the region of the delay slot (decision D8), the field, and two
zero bits; the transfer is delayed as the source writes it. -/
def Obligations.JumpsWithinTheRegion : Prop :=
  ∀ (s : State) (imm26 : Imm26), s.inDelay = false →
    IsWordOf (wordJ 0b000010#6 imm26) (.j imm26) ∧ IsWordOf (wordJ 0b000011#6 imm26) (.jal imm26) ∧
    Transfers (.j imm26) s (s.npc.extractLsb' 28 4 ++ imm26 ++ 0#2) ∧
    TransfersAndLinks (.jal imm26) s (s.npc.extractLsb' 28 4 ++ imm26 ++ 0#2) 31#5 (s.pc + 8#32) 0

/-- JR and JALR outside a delay slot (R170, R169): all 32 bits of the register, read before the link is written; JALR with
`rd = rs`, not register 0, has no meaning (decision D11). -/
def Obligations.JumpsThroughARegister : Prop :=
  ∀ (s : State) (rd rs : Reg), s.inDelay = false →
    IsWordOf (wordR rs 0#5 0#5 0#5 0b001000#6) (.jr rs) ∧ IsWordOf (wordR rs 0#5 rd 0#5 0b001001#6) (.jalr rd rs) ∧
    Transfers (.jr rs) s (s.readReg rs) ∧
    (rd ≠ rs ∨ rd = 0#5 → TransfersAndLinks (.jalr rd rs) s (s.readReg rs) rd (s.pc + 8#32) 0) ∧
    (rd = rs ∧ rd ≠ 0#5 → exec (.jalr rd rs) s = .refused .jalrSameRegister)

/-- Each of the twelve control transfers is refused in a delay slot, before any effect (R171, decision D10). -/
def Obligations.ControlTransferRefusedInDelaySlot : Prop :=
  ∀ (i : Instr) (s : State), i.mnemonic.isControlTransfer = true → s.inDelay = true →
    exec i s = .refused .controlTransferInDelaySlot

/-- No instruction changes which instruction executes immediately after it (R155, decision D7), unless it goes to a trap
vector; the next step is in a delay slot exactly after a control transfer (R16), and knows a loaded register only after a
load, which is one the load names (R17). -/
def Obligations.TheNextInstructionIsAtNpc : Prop :=
  ∀ (i : Instr) (s t : State), exec i s = .next t →
    (t.pc = s.npc ∨ s.params.trapVector = some t.pc ∧ t.npc = t.pc + 4#32) ∧
    (t.inDelay = true ↔ i.mnemonic.isControlTransfer = true) ∧
    (t.loadReg ≠ 0#5 → i.mnemonic.isLoad = true ∧ t.loadReg ∈ namedRegs i)

/-! ### Loads and stores (`44_load_store.md`) -/

/-- LB and LBU in full (R178, R179; the sign-extended displacement is decision D4, MEM_MAP is open). -/
def Obligations.ByteLoads : Prop :=
  ∀ (s : State) (rt rs : Reg) (imm : Imm16) (ea : Word), ea = addressOf s rs imm →
    IsWordOf (wordI 0b100000#6 rs rt imm) (.lb rt imm rs) ∧ IsWordOf (wordI 0b100100#6 rs rt imm) (.lbu rt imm rs) ∧
    (Region.anyHolds s.params.memMap ea.toNat = true →
      LoadsReg (.lb rt imm rs) s rt ((s.readByte ea).signExtend 32) ∧
      LoadsReg (.lbu rt imm rs) s rt ((s.readByte ea).zeroExtend 32)) ∧
    (Region.anyHolds s.params.memMap ea.toNat = false →
      exec (.lb rt imm rs) s = .refused .unmapped ∧ exec (.lbu rt imm rs) s = .refused .unmapped)

/-- LH, LHU and LW where their address is a multiple of the width and mapped, by bytes under either byte order (R180 to R182,
R34). -/
def Obligations.HalfAndWordLoads : Prop :=
  ∀ (s : State) (rt rs : Reg) (imm : Imm16) (ea : Word) (b0 b1 b2 b3 : Byte), ea = addressOf s rs imm →
    b0 = s.readByte ea → b1 = s.readByte (ea + 1#32) → b2 = s.readByte (ea + 2#32) → b3 = s.readByte (ea + 3#32) →
    IsWordOf (wordI 0b100001#6 rs rt imm) (.lh rt imm rs) ∧ IsWordOf (wordI 0b100101#6 rs rt imm) (.lhu rt imm rs) ∧
    IsWordOf (wordI 0b100011#6 rs rt imm) (.lw rt imm rs) ∧
    (ea.toNat % 2 = 0 → AllMapped s ea 2 → s.params.endian = .big →
      LoadsReg (.lh rt imm rs) s rt ((b0 ++ b1).signExtend 32) ∧
      LoadsReg (.lhu rt imm rs) s rt ((b0 ++ b1).zeroExtend 32)) ∧
    (ea.toNat % 2 = 0 → AllMapped s ea 2 → s.params.endian = .little →
      LoadsReg (.lh rt imm rs) s rt ((b1 ++ b0).signExtend 32) ∧
      LoadsReg (.lhu rt imm rs) s rt ((b1 ++ b0).zeroExtend 32)) ∧
    (ea.toNat % 4 = 0 → AllMapped s ea 4 → s.params.endian = .big →
      LoadsReg (.lw rt imm rs) s rt (b0 ++ b1 ++ b2 ++ b3)) ∧
    (ea.toNat % 4 = 0 → AllMapped s ea 4 → s.params.endian = .little →
      LoadsReg (.lw rt imm rs) s rt (b3 ++ b2 ++ b1 ++ b0))

/-- SB, SH and SW where their address is a multiple of the width, mapped and outside TEXT: exactly the bytes of their width
change, laid out by the byte order (R177, R183 to R185, R35). -/
def Obligations.StoresWriteTheirBytes : Prop :=
  ∀ (s : State) (rt rs : Reg) (imm : Imm16) (ea : Word) (b3 b2 b1 b0 : Byte), ea = addressOf s rs imm →
    s.readReg rt = b3 ++ b2 ++ b1 ++ b0 →
    IsWordOf (wordI 0b101000#6 rs rt imm) (.sb rt imm rs) ∧ IsWordOf (wordI 0b101001#6 rs rt imm) (.sh rt imm rs) ∧
    IsWordOf (wordI 0b101011#6 rs rt imm) (.sw rt imm rs) ∧
    (AllMapped s ea 1 → NoneInText s ea 1 → StoresBytes (.sb rt imm rs) s ea [b0]) ∧
    (ea.toNat % 2 = 0 → AllMapped s ea 2 → NoneInText s ea 2 → s.params.endian = .big →
      StoresBytes (.sh rt imm rs) s ea [b1, b0]) ∧
    (ea.toNat % 2 = 0 → AllMapped s ea 2 → NoneInText s ea 2 → s.params.endian = .little →
      StoresBytes (.sh rt imm rs) s ea [b0, b1]) ∧
    (ea.toNat % 4 = 0 → AllMapped s ea 4 → NoneInText s ea 4 → s.params.endian = .big →
      StoresBytes (.sw rt imm rs) s ea [b3, b2, b1, b0]) ∧
    (ea.toNat % 4 = 0 → AllMapped s ea 4 → NoneInText s ea 4 → s.params.endian = .little →
      StoresBytes (.sw rt imm rs) s ea [b0, b1, b2, b3])

/-- A misaligned access raises the address error with the effective address, mapped or not (R36, R175, R204; decision D18). -/
def Obligations.MisalignedAccessRaises : Prop :=
  ∀ (s : State) (rt rs : Reg) (imm : Imm16) (ea : Word), ea = addressOf s rs imm →
    (ea.toNat % 2 ≠ 0 →
      Raises (exec (.lh rt imm rs) s) s .addressErrorLoad ea ∧ Raises (exec (.lhu rt imm rs) s) s .addressErrorLoad ea ∧
      Raises (exec (.sh rt imm rs) s) s .addressErrorStore ea) ∧
    (ea.toNat % 4 ≠ 0 →
      Raises (exec (.lw rt imm rs) s) s .addressErrorLoad ea ∧ Raises (exec (.sw rt imm rs) s) s .addressErrorStore ea)

/-- An aligned access with a byte outside MEM_MAP is refused, and a mapped store with a byte in TEXT is refused (R40, R43,
R175; decisions D26, D28). -/
def Obligations.UnmappedAndTextAccessRefused : Prop :=
  ∀ (s : State) (rt rs : Reg) (imm : Imm16) (ea : Word), ea = addressOf s rs imm →
    (ea.toNat % 2 = 0 → ¬ AllMapped s ea 2 →
      exec (.lh rt imm rs) s = .refused .unmapped ∧ exec (.lhu rt imm rs) s = .refused .unmapped ∧
      exec (.sh rt imm rs) s = .refused .unmapped) ∧
    (ea.toNat % 4 = 0 → ¬ AllMapped s ea 4 →
      exec (.lw rt imm rs) s = .refused .unmapped ∧ exec (.sw rt imm rs) s = .refused .unmapped) ∧
    (¬ AllMapped s ea 1 → exec (.sb rt imm rs) s = .refused .unmapped) ∧
    (AllMapped s ea 1 → ¬ NoneInText s ea 1 → exec (.sb rt imm rs) s = .refused .storeToText) ∧
    (ea.toNat % 2 = 0 → AllMapped s ea 2 → ¬ NoneInText s ea 2 → exec (.sh rt imm rs) s = .refused .storeToText) ∧
    (ea.toNat % 4 = 0 → AllMapped s ea 4 → ¬ NoneInText s ea 4 → exec (.sw rt imm rs) s = .refused .storeToText)

/-! ### Exceptions (`45_system.md`, `60_exceptions.md`) -/

/-- Every execution of BREAK raises Breakpoint and every execution of SYSCALL raises SystemCall, whatever the ignored bits
25..6 (R190, R191, R202, R203). Without a trap vector the run ends there, and the record holds the address of the
instruction and `in_delay` (R209, decision D22). -/
def Obligations.BreakAndSyscallEndTheRun : Prop :=
  ∀ (s : State) (a b c d : Reg), s.params.trapVector = none →
    IsWordOf (wordR a b c d 0b001101#6) .brk ∧ IsWordOf (wordR a b c d 0b001100#6) .syscall ∧
    exec .brk s = .fault (.trap { cause := .breakpoint, epc := s.pc, inDelay := s.inDelay, info := s.pc }) ∧
    exec .syscall s = .fault (.trap { cause := .systemCall, epc := s.pc, inDelay := s.inDelay, info := s.pc })

/-- With a trap vector, BREAK and SYSCALL answer a next state at the vector, nothing a program can read has changed but
the program counters, and the platform has the record (R210, decision D22; that it is a field of the state is log entry
12). -/
def Obligations.BreakAndSyscallGoToTheVector : Prop :=
  ∀ (s : State) (v : Word), s.params.trapVector = some v →
    (∃ t, exec .brk s = .next t ∧ t.pc = v ∧ t.npc = v + 4#32 ∧ t.inDelay = false ∧ t.loadReg = 0#5 ∧
      RegsKept s t ∧ HiLoKept s t ∧ MemKept s t ∧ t.params = s.params ∧ t.draws = s.draws ∧
      t.lastTrap = some { cause := .breakpoint, epc := s.pc, inDelay := s.inDelay, info := s.pc }) ∧
    (∃ t, exec .syscall s = .next t ∧ t.pc = v ∧ t.npc = v + 4#32 ∧ t.inDelay = false ∧ t.loadReg = 0#5 ∧
      RegsKept s t ∧ HiLoKept s t ∧ MemKept s t ∧ t.params = s.params ∧ t.draws = s.draws ∧
      t.lastTrap = some { cause := .systemCall, epc := s.pc, inDelay := s.inDelay, info := s.pc })

/-- Only the instructions of R200's table raise, each its own exceptions, and a terminal trap needs TRAP_VECTOR = none
(decision D22). -/
def Obligations.OnlyTheListedInstructionsTrap : Prop :=
  ∀ (i : Instr) (s : State) (f : Fault), exec i s = .fault f → s.params.trapVector = none ∧
    ∃ (e : Exception) (info : Word), f = .trap (trapOf s e info) ∧
      ((e = .overflow ∧ i.mnemonic ∈ [.ADD, .ADDI, .SUB] ∧ info = s.pc) ∨
        (e = .breakpoint ∧ i.mnemonic = .BREAK ∧ info = s.pc) ∨
        (e = .systemCall ∧ i.mnemonic = .SYSCALL ∧ info = s.pc) ∨
        (e = .addressErrorLoad ∧ i.mnemonic ∈ [.LH, .LHU, .LW] ∧ info.toNat % 4 ≠ 0) ∨
        (e = .addressErrorStore ∧ i.mnemonic ∈ [.SH, .SW] ∧ info.toNat % 4 ≠ 0))

/-- No instruction is refused but for the four reasons its rule names: a byte outside MEM_MAP, a store into TEXT, a control
transfer in a delay slot, JALR on one register (R40, R43, R171, R169). -/
def Obligations.OnlyTheListedRefusals : Prop :=
  ∀ (i : Instr) (s : State) (r : Refusal), exec i s = .refused r →
    (r = .unmapped ∧ (i.mnemonic.isLoad = true ∨ i.mnemonic.isStore = true)) ∨
    (r = .storeToText ∧ i.mnemonic.isStore = true) ∨
    (r = .controlTransferInDelaySlot ∧ i.mnemonic.isControlTransfer = true ∧ s.inDelay = true) ∨
    (r = .jalrSameRegister ∧ i.wellFormed = false)

/-! ### The step (`10_state.md` R17, `60_exceptions.md` R208) -/

/-- A step runs the decoded instruction: where `pc` is a multiple of 4, the four bytes there are mapped, their word decodes to
`i`, and `i` does not use a register just loaded (or LOAD_DELAY is interlocked), the step is `exec i`, with nothing added
around it. -/
def Obligations.StepRunsTheDecodedInstruction : Prop :=
  ∀ (s : State) (i : Instr), s.pc.toNat % 4 = 0 → AllMapped s s.pc 4 → decode s.params (s.read4 s.pc) = .instr i →
    (s.params.loadDelay = .interlocked ∨ s.loadReg = 0#5 ∨ s.loadReg ∉ namedRegs i) → step s = exec i s

/-- The steps that run no instruction, in the order of R208 (decision D22): a misaligned `pc` raises AddressErrorFetch
(D19); an unmapped fetch is refused (D26); a reserved word raises ReservedInstruction with the word (D20); a non-zero
constant field is refused (D21); a use of the register just loaded is refused (D29). -/
def Obligations.StepsThatRunNoInstruction : Prop :=
  ∀ (s : State),
    (s.pc.toNat % 4 ≠ 0 → Raises (step s) s .addressErrorFetch s.pc) ∧
    (s.pc.toNat % 4 = 0 → ¬ AllMapped s s.pc 4 → step s = .refused .unmapped) ∧
    (s.pc.toNat % 4 = 0 → AllMapped s s.pc 4 → decode s.params (s.read4 s.pc) = .reserved →
      Raises (step s) s .reservedInstruction (s.read4 s.pc)) ∧
    (s.pc.toNat % 4 = 0 → AllMapped s s.pc 4 → decode s.params (s.read4 s.pc) = .nonzeroConstantField →
      step s = .refused .nonzeroConstantField) ∧
    (∀ i, s.pc.toNat % 4 = 0 → AllMapped s s.pc 4 → decode s.params (s.read4 s.pc) = .instr i →
      s.params.loadDelay = .refuse → s.loadReg ≠ 0#5 → s.loadReg ∈ namedRegs i → step s = .refused .loadUse)

/-- Where the four bytes at `pc` are in MEM_MAP, a word that `State.withFetchWord` lays out there is the word `fetchWord`
reads, under either byte order (R34, R35, R39; that a fetch uses the byte order of data is decision D39); a step whose `pc` is
a multiple of 4 fetches that word. No store instruction is meant, which R43 refuses in TEXT: `withFetchWord` is the model's
stand-in for the platform's load of a program (DESIGN CHOICE, log entry 17). -/
def Obligations.AStoredWordIsFetched : Prop :=
  ∀ (s : State) (w : Nat), AllMapped s s.pc 4 → fetchWord (s.withFetchWord 32 w) = some (BitVec.ofNat 32 w)

/-- The word 0 is the no-operation: it decodes to SLL of register 0 and changes only the program counters (R68). -/
def Obligations.TheZeroWordChangesOnlyTheCounters : Prop :=
  IsWordOf 0#32 (.sll 0#5 0#5 0#5) ∧
  ∀ s : State, ∃ t, exec (.sll 0#5 0#5 0#5) s = .next t ∧ RegsKept s t ∧ HiLoKept s t ∧ MemKept s t ∧
    ControlIs s t (s.npc + 4#32) false 0#5 ∧ OwnKept s t 0

/-! ### Frames over all instructions -/

/-- An instruction leaves alone, and does not look at, every general register it does not name: running it on a state with
another value in such a register gives the same outcome, with that value there (R12, R237). -/
def Obligations.UnnamedRegistersPlayNoPart : Prop :=
  ∀ (i : Instr) (s : State) (r : Reg) (v : Word), r ∉ namedRegs i →
    exec i (s.writeReg r v) = mapNext (fun t => t.writeReg r v) (exec i s)

/-- Instructions other than the loads and stores neither read nor write memory (R31). -/
def Obligations.OnlyLoadsAndStoresReachMemory : Prop :=
  ∀ (i : Instr) (s : State) (m : Memory), i.mnemonic.isLoad = false → i.mnemonic.isStore = false →
    exec i (withMem m s) = mapNext (withMem m) (exec i s)

/-- Instructions other than the eight of R21 neither read nor write HI and LO. -/
def Obligations.OnlyEightInstructionsTouchHiLo : Prop :=
  ∀ (i : Instr) (s : State) (h l : Word),
    i.mnemonic ∉ [.DIV, .DIVU, .MULT, .MULTU, .MTHI, .MTLO, .MFHI, .MFLO] →
    exec i (withHiLo h l s) = mapNext (withHiLo h l) (exec i s)

/-- An instruction that answers a next state and is not a division, a multiplication or a linking branch leaves the counter
of draws as it was. The counter is the model's own field (log entry 10). -/
def Obligations.OnlyTheseInstructionsDraw : Prop :=
  ∀ (i : Instr) (s t : State), exec i s = .next t →
    i.mnemonic ∉ [.DIV, .DIVU, .MULT, .MULTU, .BGEZAL, .BLTZAL] → t.draws = s.draws

/-! ### The machine as a whole -/

/-- From every state that meets the invariant, a step that answers a next state keeps it: memory stays canonical and inside
MEM_MAP, the parameters stay as R4 asks, `npc = pc + 4` outside a delay slot (R155), a delay slot is aligned. -/
def Obligations.StepKeepsTheInvariant : Prop :=
  ∀ s t : State, Inv s → step s = .next t → Inv t

/-- The invariant holds of every state in which a run from a state that meets it ends or still runs, whatever END_OF_RUN
is (R234). -/
def Obligations.RunsKeepTheInvariant : Prop :=
  ∀ (endOfRun : State → Bool) (k : Nat) (s t : State), Inv s →
    (runUntil endOfRun k s = .ended t → Inv t ∧ endOfRun t = true) ∧
    (runUntil endOfRun k s = .running t → Inv t ∧ endOfRun t = false)

/-- The invariant holds after reset, for all parameters that R4 allows, and for those the log names. -/
def Obligations.ResetMeetsTheInvariant : Prop :=
  (∀ p : Params, p.Wf → Inv (State.resetWith p)) ∧ Inv State.reset

/-- No step changes a byte of TEXT (R43, decision D28) or a byte outside MEM_MAP (R40, decision D26): the program text is
immutable. -/
def Obligations.ProgramTextIsImmutable : Prop :=
  ∀ (s t : State) (a : Word), step s = .next t →
    (Region.anyHolds s.params.text a.toNat = true ∨ Region.anyHolds s.params.memMap a.toNat = false) →
    t.readByte a = s.readByte a

/-- The parameters are fixed for a whole run: no step changes one (R4, R33). That they are held in the state is the model's
choice (log entry 1). -/
def Obligations.ParametersNeverChange : Prop := ∀ s t : State, step s = .next t → t.params = s.params

/-- What reset leaves (R230 to R233, decision D25), for all parameters. That the registers, HI and LO hold 0 and that no byte
of memory has a value is the model's choice (log entries 7 and 9). -/
def Obligations.ResetLeaves : Prop :=
  ∀ (p : Params) (r : Reg),
    (State.resetWith p).pc = p.resetPc ∧ (State.resetWith p).npc = p.resetPc + 4#32 ∧
    (State.resetWith p).inDelay = false ∧ (State.resetWith p).loadReg = 0#5 ∧ (State.resetWith p).params = p ∧
    (State.resetWith p).readReg r = 0#32 ∧ (State.resetWith p).hi = 0#32 ∧ (State.resetWith p).lo = 0#32 ∧
    (State.resetWith p).mem = []

/-! ### Rules by themselves, without the shared frame -/

/-- MTHI writes HI with `x[rs]` and MTLO writes LO with `x[rs]`; each leaves the other of the two, and the general registers,
as they were (R147, R148). What else the next state holds is in `HiLoMoves`. -/
def Obligations.MthiAndMtloWriteOneRegister : Prop :=
  ∀ (s : State) (rs : Reg),
    IsWordOf (wordR rs 0#5 0#5 0#5 0b010001#6) (.mthi rs) ∧ IsWordOf (wordR rs 0#5 0#5 0#5 0b010011#6) (.mtlo rs) ∧
    (∃ t, exec (.mthi rs) s = .next t ∧ t.hi = s.readReg rs ∧ t.lo = s.lo ∧ RegsKept s t) ∧
    (∃ t, exec (.mtlo rs) s = .next t ∧ t.lo = s.readReg rs ∧ t.hi = s.hi ∧ RegsKept s t)

/-- The function map of `op = 0` (R62), whatever the parameters: a word that decodes to an instruction has the `fn` at which
the map shows it, a word whose `fn` the map shows as `-` is reserved, and each entry of the map is some instruction's word. -/
def Obligations.FunctionMapOfOpZero : Prop :=
  (∀ (p : Params) (w : Word), opOf w = 0#6 →
    (∀ i, decode p w = .instr i → (fnOf w, i.mnemonic) ∈ functionMap) ∧
    (fnOf w ∉ functionMap.map Prod.fst → decode p w = .reserved)) ∧
  ∀ f m, (f, m) ∈ functionMap → ∃ (w : Word) (i : Instr), opOf w = 0#6 ∧ fnOf w = f ∧ i.mnemonic = m ∧ IsWordOf w i

/-- The branch-group map of `op = 1` (R63): the four `rt` values name their branches, and the other 28 are reserved, whatever
the other fields and the parameters. -/
def Obligations.BranchGroupMap : Prop :=
  ∀ (rs rt : Reg) (imm : Imm16),
    IsWordOf (wordI 0b000001#6 rs 0b00000#5 imm) (.bltz rs imm) ∧
    IsWordOf (wordI 0b000001#6 rs 0b00001#5 imm) (.bgez rs imm) ∧
    IsWordOf (wordI 0b000001#6 rs 0b10000#5 imm) (.bltzal rs imm) ∧
    IsWordOf (wordI 0b000001#6 rs 0b10001#5 imm) (.bgezal rs imm) ∧
    (rt ∉ [0b00000#5, 0b00001#5, 0b10000#5, 0b10001#5] → ∀ p : Params, decode p (wordI 0b000001#6 rs rt imm) = .reserved)
end

