-- ==== Sys2Proof/Laws/Decode.lean ====
section
/-! SUPPORT. The fields of a word built from its fields, and words as the concatenation of their fields. -/

namespace Sys2Proof

/-- A field that a concatenation holds in its high part. -/
theorem extract_append_high {m n : Nat} (x : BitVec m) (y : BitVec n) (i k : Nat) :
    (x ++ y).extractLsb' (n + i) k = x.extractLsb' i k := by
  ext j hj
  simp [BitVec.getElem_extractLsb', BitVec.getLsbD_append, Nat.add_assoc]

/-- A field that a concatenation holds in its low part. -/
theorem extract_append_low {m n : Nat} (x : BitVec m) (y : BitVec n) (i k : Nat) (h : i + k ≤ n) :
    (x ++ y).extractLsb' i k = y.extractLsb' i k := by
  ext j hj
  have : i + j < n := by omega
  simp [BitVec.getElem_extractLsb', BitVec.getLsbD_append, this]

/-- The whole of a field. -/
theorem extract_all {n : Nat} (x : BitVec n) : x.extractLsb' 0 n = x := by simp

/-! ### The fields of an R-format word -/

section
variable (rs rt rd : Reg) (sh : Shamt) (fn : BitVec 6)

@[simp] theorem opOf_wordR : opOf (wordR rs rt rd sh fn) = 0b000000#6 := by
  unfold opOf wordR
  rw [extract_append_high _ fn 20, extract_append_high _ sh 15, extract_append_high _ rd 10,
    extract_append_high _ rt 5, extract_append_high _ rs 0, extract_all]

@[simp] theorem rsOf_wordR : rsOf (wordR rs rt rd sh fn) = rs := by
  unfold rsOf wordR
  rw [extract_append_high _ fn 15, extract_append_high _ sh 10, extract_append_high _ rd 5,
    extract_append_high _ rt 0, extract_append_low _ rs 0 5 (by decide), extract_all]

@[simp] theorem rtOf_wordR : rtOf (wordR rs rt rd sh fn) = rt := by
  unfold rtOf wordR
  rw [extract_append_high _ fn 10, extract_append_high _ sh 5, extract_append_high _ rd 0,
    extract_append_low _ rt 0 5 (by decide), extract_all]

@[simp] theorem rdOf_wordR : rdOf (wordR rs rt rd sh fn) = rd := by
  unfold rdOf wordR
  rw [extract_append_high _ fn 5, extract_append_high _ sh 0, extract_append_low _ rd 0 5 (by decide), extract_all]

@[simp] theorem shOf_wordR : shOf (wordR rs rt rd sh fn) = sh := by
  unfold shOf wordR
  rw [extract_append_high _ fn 0, extract_append_low _ sh 0 5 (by decide), extract_all]

@[simp] theorem fnOf_wordR : fnOf (wordR rs rt rd sh fn) = fn := by
  unfold fnOf wordR
  rw [extract_append_low _ fn 0 6 (by decide), extract_all]

end

/-! ### The fields of an I-format word -/

section
variable (op : BitVec 6) (rs rt : Reg) (imm : Imm16)

@[simp] theorem opOf_wordI : opOf (wordI op rs rt imm) = op := by
  unfold opOf wordI
  rw [extract_append_high _ imm 10, extract_append_high _ rt 5, extract_append_high _ rs 0, extract_all]

@[simp] theorem rsOf_wordI : rsOf (wordI op rs rt imm) = rs := by
  unfold rsOf wordI
  rw [extract_append_high _ imm 5, extract_append_high _ rt 0, extract_append_low _ rs 0 5 (by decide), extract_all]

@[simp] theorem rtOf_wordI : rtOf (wordI op rs rt imm) = rt := by
  unfold rtOf wordI
  rw [extract_append_high _ imm 0, extract_append_low _ rt 0 5 (by decide), extract_all]

@[simp] theorem immOf_wordI : immOf (wordI op rs rt imm) = imm := by
  unfold immOf wordI
  rw [extract_append_low _ imm 0 16 (by decide), extract_all]

end

/-! ### The fields of a J-format word -/

section
variable (op : BitVec 6) (imm26 : Imm26)

@[simp] theorem opOf_wordJ : opOf (wordJ op imm26) = op := by
  unfold opOf wordJ
  rw [extract_append_high _ imm26 0, extract_all]

@[simp] theorem imm26Of_wordJ : imm26Of (wordJ op imm26) = imm26 := by
  unfold imm26Of wordJ
  rw [extract_append_low _ imm26 0 26 (by decide), extract_all]

end

/-! ### Words and masks, field by field -/

/-- A bit of a concatenation. -/
theorem getLsbD_concat {m n : Nat} (x : BitVec m) (y : BitVec n) (i : Nat) :
    (x ++ y).getLsbD i = if i < n then y.getLsbD i else x.getLsbD (i - n) := by
  simp [BitVec.getLsbD_append]

/-- Every word is the concatenation of its R-format fields. -/
theorem word_eq_fieldsR (w : Word) : w = opOf w ++ rsOf w ++ rtOf w ++ rdOf w ++ shOf w ++ fnOf w := by
  apply BitVec.eq_of_getLsbD_eq
  intro i hi
  rw [getLsbD_concat, getLsbD_concat, getLsbD_concat, getLsbD_concat, getLsbD_concat]
  simp only [opOf, rsOf, rtOf, rdOf, shOf, fnOf, BitVec.getLsbD_extractLsb']
  grind

/-- Every word is the I-format word of its fields. -/
theorem word_eq_wordI (w : Word) : w = wordI (opOf w) (rsOf w) (rtOf w) (immOf w) := by
  unfold wordI
  apply BitVec.eq_of_getLsbD_eq
  intro i hi
  rw [getLsbD_concat, getLsbD_concat, getLsbD_concat]
  simp only [opOf, rsOf, rtOf, immOf, BitVec.getLsbD_extractLsb']
  grind

/-- Every word is the J-format word of its fields. -/
theorem word_eq_wordJ (w : Word) : w = wordJ (opOf w) (imm26Of w) := by
  unfold wordJ
  apply BitVec.eq_of_getLsbD_eq
  intro i hi
  rw [getLsbD_concat]
  simp only [opOf, imm26Of, BitVec.getLsbD_extractLsb']
  grind

/-- A word with `op = 0` is the R-format word of its fields. -/
theorem word_eq_wordR {w : Word} (h : opOf w = 0b000000#6) :
    w = wordR (rsOf w) (rtOf w) (rdOf w) (shOf w) (fnOf w) := by
  unfold wordR
  rw [← h]
  exact word_eq_fieldsR w

/-- A mask applied to an R-format word is applied to its fields. -/
theorem wordR_and (rs rt rd ms mt md : Reg) (sh msh : Shamt) (fn mf : BitVec 6) :
    wordR rs rt rd sh fn &&& (0b111111#6 ++ ms ++ mt ++ md ++ msh ++ mf) =
      wordR (rs &&& ms) (rt &&& mt) (rd &&& md) (sh &&& msh) (fn &&& mf) := by
  unfold wordR
  refine BitVec.and_append.trans (congrArg (· ++ _) ?_)
  refine BitVec.and_append.trans (congrArg (· ++ _) ?_)
  refine BitVec.and_append.trans (congrArg (· ++ _) ?_)
  refine BitVec.and_append.trans (congrArg (· ++ _) ?_)
  exact BitVec.and_append

/-- A mask applied to an I-format word is applied to its fields. -/
theorem wordI_and (op mop : BitVec 6) (rs rt ms mt : Reg) (imm mi : Imm16) :
    wordI op rs rt imm &&& (mop ++ ms ++ mt ++ mi) = wordI (op &&& mop) (rs &&& ms) (rt &&& mt) (imm &&& mi) := by
  unfold wordI
  refine BitVec.and_append.trans (congrArg (· ++ _) ?_)
  refine BitVec.and_append.trans (congrArg (· ++ _) ?_)
  exact BitVec.and_append

/-- A mask applied to a J-format word is applied to its fields. -/
theorem wordJ_and (op mop : BitVec 6) (x mx : Imm26) : wordJ op x &&& (mop ++ mx) = wordJ (op &&& mop) (x &&& mx) :=
  BitVec.and_append

/-! ### Rows that fit -/

/-- A row fits an R-format word when its bits are those the mask leaves of the fields. -/
theorem fits_wordR {mask bits : Word} (m : Mnemonic) (rs rt rd ms mt md : Reg) (sh msh : Shamt) (fn : BitVec 6)
    (hm : mask = 0b111111#6 ++ ms ++ mt ++ md ++ msh ++ 0b111111#6)
    (hb : bits = wordR (rs &&& ms) (rt &&& mt) (rd &&& md) (sh &&& msh) fn) :
    OpcodeRow.fits ⟨m, bits, mask⟩ (wordR rs rt rd sh fn) = true := by
  have h : fn &&& 0b111111#6 = fn := BitVec.and_allOnes
  subst hm hb
  simp only [OpcodeRow.fits, wordR_and, h, beq_self_eq_true]

/-- A row fits an I-format word when its bits are those the mask leaves of the fields. -/
theorem fits_wordI {mask bits : Word} (m : Mnemonic) (op : BitVec 6) (rs rt mt : Reg) (imm : Imm16)
    (hm : mask = 0b111111#6 ++ 0#5 ++ mt ++ 0#16) (hb : bits = wordI op 0#5 (rt &&& mt) 0#16) :
    OpcodeRow.fits ⟨m, bits, mask⟩ (wordI op rs rt imm) = true := by
  have h : op &&& 0b111111#6 = op := BitVec.and_allOnes
  subst hm hb
  simp only [OpcodeRow.fits, wordI_and, h, BitVec.and_zero, beq_self_eq_true]

/-- A row fits a J-format word when its bits are the OPCODE. -/
theorem fits_wordJ {mask bits : Word} (m : Mnemonic) (op : BitVec 6) (x : Imm26)
    (hm : mask = 0b111111#6 ++ 0#26) (hb : bits = wordJ op 0#26) :
    OpcodeRow.fits ⟨m, bits, mask⟩ (wordJ op x) = true := by
  have h : op &&& 0b111111#6 = op := BitVec.and_allOnes
  subst hm hb
  simp only [OpcodeRow.fits, wordJ_and, h, BitVec.and_zero, beq_self_eq_true]

end Sys2Proof
end

