-- ==== Sys2Proof/Laws/State.lean ====
section
/-! SUPPORT. One lemma per field for each operation that updates the state: no proof needs to unfold a record update. -/

namespace Sys2Proof.Machine

/-! ### `State.commit` -/

@[simp] theorem State.commit_regs (s : State) (n : Word) (d : Bool) (l : Reg) : (s.commit n d l).regs = s.regs := rfl
@[simp] theorem State.commit_hi (s : State) (n : Word) (d : Bool) (l : Reg) : (s.commit n d l).hi = s.hi := rfl
@[simp] theorem State.commit_lo (s : State) (n : Word) (d : Bool) (l : Reg) : (s.commit n d l).lo = s.lo := rfl
@[simp] theorem State.commit_pc (s : State) (n : Word) (d : Bool) (l : Reg) : (s.commit n d l).pc = s.npc := rfl
@[simp] theorem State.commit_npc (s : State) (n : Word) (d : Bool) (l : Reg) : (s.commit n d l).npc = n := rfl
@[simp] theorem State.commit_inDelay (s : State) (n : Word) (d : Bool) (l : Reg) : (s.commit n d l).inDelay = d := rfl
@[simp] theorem State.commit_loadReg (s : State) (n : Word) (d : Bool) (l : Reg) : (s.commit n d l).loadReg = l := rfl
@[simp] theorem State.commit_mem (s : State) (n : Word) (d : Bool) (l : Reg) : (s.commit n d l).mem = s.mem := rfl
@[simp] theorem State.commit_params (s : State) (n : Word) (d : Bool) (l : Reg) : (s.commit n d l).params = s.params := rfl
@[simp] theorem State.commit_draws (s : State) (n : Word) (d : Bool) (l : Reg) : (s.commit n d l).draws = s.draws := rfl
@[simp] theorem State.commit_lastTrap (s : State) (n : Word) (d : Bool) (l : Reg) : (s.commit n d l).lastTrap = s.lastTrap := rfl

/-! ### `State.advance` -/

@[simp] theorem State.advance_regs (s : State) : (s.advance).regs = s.regs := rfl
@[simp] theorem State.advance_hi (s : State) : (s.advance).hi = s.hi := rfl
@[simp] theorem State.advance_lo (s : State) : (s.advance).lo = s.lo := rfl
@[simp] theorem State.advance_pc (s : State) : (s.advance).pc = s.npc := rfl
@[simp] theorem State.advance_npc (s : State) : (s.advance).npc = s.npc + 4#32 := rfl
@[simp] theorem State.advance_inDelay (s : State) : (s.advance).inDelay = false := rfl
@[simp] theorem State.advance_loadReg (s : State) : (s.advance).loadReg = 0#5 := rfl
@[simp] theorem State.advance_mem (s : State) : (s.advance).mem = s.mem := rfl
@[simp] theorem State.advance_params (s : State) : (s.advance).params = s.params := rfl
@[simp] theorem State.advance_draws (s : State) : (s.advance).draws = s.draws := rfl
@[simp] theorem State.advance_lastTrap (s : State) : (s.advance).lastTrap = s.lastTrap := rfl

/-! ### `State.advanceLoad` -/

@[simp] theorem State.advanceLoad_regs (s : State) (r : Reg) : (s.advanceLoad r).regs = s.regs := rfl
@[simp] theorem State.advanceLoad_hi (s : State) (r : Reg) : (s.advanceLoad r).hi = s.hi := rfl
@[simp] theorem State.advanceLoad_lo (s : State) (r : Reg) : (s.advanceLoad r).lo = s.lo := rfl
@[simp] theorem State.advanceLoad_pc (s : State) (r : Reg) : (s.advanceLoad r).pc = s.npc := rfl
@[simp] theorem State.advanceLoad_npc (s : State) (r : Reg) : (s.advanceLoad r).npc = s.npc + 4#32 := rfl
@[simp] theorem State.advanceLoad_inDelay (s : State) (r : Reg) : (s.advanceLoad r).inDelay = false := rfl
@[simp] theorem State.advanceLoad_loadReg (s : State) (r : Reg) : (s.advanceLoad r).loadReg = r := rfl
@[simp] theorem State.advanceLoad_mem (s : State) (r : Reg) : (s.advanceLoad r).mem = s.mem := rfl
@[simp] theorem State.advanceLoad_params (s : State) (r : Reg) : (s.advanceLoad r).params = s.params := rfl
@[simp] theorem State.advanceLoad_draws (s : State) (r : Reg) : (s.advanceLoad r).draws = s.draws := rfl
@[simp] theorem State.advanceLoad_lastTrap (s : State) (r : Reg) : (s.advanceLoad r).lastTrap = s.lastTrap := rfl

/-! ### `State.transferTo` -/

@[simp] theorem State.transferTo_regs (s : State) (w : Word) : (s.transferTo w).regs = s.regs := rfl
@[simp] theorem State.transferTo_hi (s : State) (w : Word) : (s.transferTo w).hi = s.hi := rfl
@[simp] theorem State.transferTo_lo (s : State) (w : Word) : (s.transferTo w).lo = s.lo := rfl
@[simp] theorem State.transferTo_pc (s : State) (w : Word) : (s.transferTo w).pc = s.npc := rfl
@[simp] theorem State.transferTo_npc (s : State) (w : Word) : (s.transferTo w).npc = w := rfl
@[simp] theorem State.transferTo_inDelay (s : State) (w : Word) : (s.transferTo w).inDelay = true := rfl
@[simp] theorem State.transferTo_loadReg (s : State) (w : Word) : (s.transferTo w).loadReg = 0#5 := rfl
@[simp] theorem State.transferTo_mem (s : State) (w : Word) : (s.transferTo w).mem = s.mem := rfl
@[simp] theorem State.transferTo_params (s : State) (w : Word) : (s.transferTo w).params = s.params := rfl
@[simp] theorem State.transferTo_draws (s : State) (w : Word) : (s.transferTo w).draws = s.draws := rfl
@[simp] theorem State.transferTo_lastTrap (s : State) (w : Word) : (s.transferTo w).lastTrap = s.lastTrap := rfl

/-! ### `State.notTaken` -/

@[simp] theorem State.notTaken_regs (s : State) : (s.notTaken).regs = s.regs := rfl
@[simp] theorem State.notTaken_hi (s : State) : (s.notTaken).hi = s.hi := rfl
@[simp] theorem State.notTaken_lo (s : State) : (s.notTaken).lo = s.lo := rfl
@[simp] theorem State.notTaken_pc (s : State) : (s.notTaken).pc = s.npc := rfl
@[simp] theorem State.notTaken_npc (s : State) : (s.notTaken).npc = s.npc + 4#32 := rfl
@[simp] theorem State.notTaken_inDelay (s : State) : (s.notTaken).inDelay = true := rfl
@[simp] theorem State.notTaken_loadReg (s : State) : (s.notTaken).loadReg = 0#5 := rfl
@[simp] theorem State.notTaken_mem (s : State) : (s.notTaken).mem = s.mem := rfl
@[simp] theorem State.notTaken_params (s : State) : (s.notTaken).params = s.params := rfl
@[simp] theorem State.notTaken_draws (s : State) : (s.notTaken).draws = s.draws := rfl
@[simp] theorem State.notTaken_lastTrap (s : State) : (s.notTaken).lastTrap = s.lastTrap := rfl

/-! ### `State.afterDraw` -/

@[simp] theorem State.afterDraw_regs (s : State) : (s.afterDraw).regs = s.regs := rfl
@[simp] theorem State.afterDraw_hi (s : State) : (s.afterDraw).hi = s.hi := rfl
@[simp] theorem State.afterDraw_lo (s : State) : (s.afterDraw).lo = s.lo := rfl
@[simp] theorem State.afterDraw_pc (s : State) : (s.afterDraw).pc = s.pc := rfl
@[simp] theorem State.afterDraw_npc (s : State) : (s.afterDraw).npc = s.npc := rfl
@[simp] theorem State.afterDraw_inDelay (s : State) : (s.afterDraw).inDelay = s.inDelay := rfl
@[simp] theorem State.afterDraw_loadReg (s : State) : (s.afterDraw).loadReg = s.loadReg := rfl
@[simp] theorem State.afterDraw_mem (s : State) : (s.afterDraw).mem = s.mem := rfl
@[simp] theorem State.afterDraw_params (s : State) : (s.afterDraw).params = s.params := rfl
@[simp] theorem State.afterDraw_draws (s : State) : (s.afterDraw).draws = s.draws + 1 := rfl
@[simp] theorem State.afterDraw_lastTrap (s : State) : (s.afterDraw).lastTrap = s.lastTrap := rfl

/-! ### `State.writeBytes` -/

@[simp] theorem State.writeBytes_regs (s : State) (a : Word) (bs : List Byte) : (s.writeBytes a bs).regs = s.regs := rfl
@[simp] theorem State.writeBytes_hi (s : State) (a : Word) (bs : List Byte) : (s.writeBytes a bs).hi = s.hi := rfl
@[simp] theorem State.writeBytes_lo (s : State) (a : Word) (bs : List Byte) : (s.writeBytes a bs).lo = s.lo := rfl
@[simp] theorem State.writeBytes_pc (s : State) (a : Word) (bs : List Byte) : (s.writeBytes a bs).pc = s.pc := rfl
@[simp] theorem State.writeBytes_npc (s : State) (a : Word) (bs : List Byte) : (s.writeBytes a bs).npc = s.npc := rfl
@[simp] theorem State.writeBytes_inDelay (s : State) (a : Word) (bs : List Byte) : (s.writeBytes a bs).inDelay = s.inDelay := rfl
@[simp] theorem State.writeBytes_loadReg (s : State) (a : Word) (bs : List Byte) : (s.writeBytes a bs).loadReg = s.loadReg := rfl
@[simp] theorem State.writeBytes_mem (s : State) (a : Word) (bs : List Byte) : (s.writeBytes a bs).mem = s.mem.writeBytes a bs := rfl
@[simp] theorem State.writeBytes_params (s : State) (a : Word) (bs : List Byte) : (s.writeBytes a bs).params = s.params := rfl
@[simp] theorem State.writeBytes_draws (s : State) (a : Word) (bs : List Byte) : (s.writeBytes a bs).draws = s.draws := rfl
@[simp] theorem State.writeBytes_lastTrap (s : State) (a : Word) (bs : List Byte) : (s.writeBytes a bs).lastTrap = s.lastTrap := rfl

/-! ### `State.write1` -/

@[simp] theorem State.write1_regs (s : State) (a : Word) (v : Byte) : (s.write1 a v).regs = s.regs := rfl
@[simp] theorem State.write1_hi (s : State) (a : Word) (v : Byte) : (s.write1 a v).hi = s.hi := rfl
@[simp] theorem State.write1_lo (s : State) (a : Word) (v : Byte) : (s.write1 a v).lo = s.lo := rfl
@[simp] theorem State.write1_pc (s : State) (a : Word) (v : Byte) : (s.write1 a v).pc = s.pc := rfl
@[simp] theorem State.write1_npc (s : State) (a : Word) (v : Byte) : (s.write1 a v).npc = s.npc := rfl
@[simp] theorem State.write1_inDelay (s : State) (a : Word) (v : Byte) : (s.write1 a v).inDelay = s.inDelay := rfl
@[simp] theorem State.write1_loadReg (s : State) (a : Word) (v : Byte) : (s.write1 a v).loadReg = s.loadReg := rfl
@[simp] theorem State.write1_mem (s : State) (a : Word) (v : Byte) : (s.write1 a v).mem = s.mem.writeBytes a [v] := rfl
@[simp] theorem State.write1_params (s : State) (a : Word) (v : Byte) : (s.write1 a v).params = s.params := rfl
@[simp] theorem State.write1_draws (s : State) (a : Word) (v : Byte) : (s.write1 a v).draws = s.draws := rfl
@[simp] theorem State.write1_lastTrap (s : State) (a : Word) (v : Byte) : (s.write1 a v).lastTrap = s.lastTrap := rfl

/-! ### `State.write2` -/

@[simp] theorem State.write2_regs (s : State) (a : Word) (v : Half) : (s.write2 a v).regs = s.regs := rfl
@[simp] theorem State.write2_hi (s : State) (a : Word) (v : Half) : (s.write2 a v).hi = s.hi := rfl
@[simp] theorem State.write2_lo (s : State) (a : Word) (v : Half) : (s.write2 a v).lo = s.lo := rfl
@[simp] theorem State.write2_pc (s : State) (a : Word) (v : Half) : (s.write2 a v).pc = s.pc := rfl
@[simp] theorem State.write2_npc (s : State) (a : Word) (v : Half) : (s.write2 a v).npc = s.npc := rfl
@[simp] theorem State.write2_inDelay (s : State) (a : Word) (v : Half) : (s.write2 a v).inDelay = s.inDelay := rfl
@[simp] theorem State.write2_loadReg (s : State) (a : Word) (v : Half) : (s.write2 a v).loadReg = s.loadReg := rfl
@[simp] theorem State.write2_mem (s : State) (a : Word) (v : Half) : (s.write2 a v).mem = s.mem.writeBytes a (bytesOfHalf s.params.endian v) := rfl
@[simp] theorem State.write2_params (s : State) (a : Word) (v : Half) : (s.write2 a v).params = s.params := rfl
@[simp] theorem State.write2_draws (s : State) (a : Word) (v : Half) : (s.write2 a v).draws = s.draws := rfl
@[simp] theorem State.write2_lastTrap (s : State) (a : Word) (v : Half) : (s.write2 a v).lastTrap = s.lastTrap := rfl

/-! ### `State.write4` -/

@[simp] theorem State.write4_regs (s : State) (a : Word) (v : Word) : (s.write4 a v).regs = s.regs := rfl
@[simp] theorem State.write4_hi (s : State) (a : Word) (v : Word) : (s.write4 a v).hi = s.hi := rfl
@[simp] theorem State.write4_lo (s : State) (a : Word) (v : Word) : (s.write4 a v).lo = s.lo := rfl
@[simp] theorem State.write4_pc (s : State) (a : Word) (v : Word) : (s.write4 a v).pc = s.pc := rfl
@[simp] theorem State.write4_npc (s : State) (a : Word) (v : Word) : (s.write4 a v).npc = s.npc := rfl
@[simp] theorem State.write4_inDelay (s : State) (a : Word) (v : Word) : (s.write4 a v).inDelay = s.inDelay := rfl
@[simp] theorem State.write4_loadReg (s : State) (a : Word) (v : Word) : (s.write4 a v).loadReg = s.loadReg := rfl
@[simp] theorem State.write4_mem (s : State) (a : Word) (v : Word) : (s.write4 a v).mem = s.mem.writeBytes a (bytesOfWord s.params.endian v) := rfl
@[simp] theorem State.write4_params (s : State) (a : Word) (v : Word) : (s.write4 a v).params = s.params := rfl
@[simp] theorem State.write4_draws (s : State) (a : Word) (v : Word) : (s.write4 a v).draws = s.draws := rfl
@[simp] theorem State.write4_lastTrap (s : State) (a : Word) (v : Word) : (s.write4 a v).lastTrap = s.lastTrap := rfl

/-! ### `State.writeReg` -/

@[simp] theorem State.writeReg_hi (s : State) (r : Reg) (v : Word) : (s.writeReg r v).hi = s.hi := by
  unfold State.writeReg; split <;> rfl
@[simp] theorem State.writeReg_lo (s : State) (r : Reg) (v : Word) : (s.writeReg r v).lo = s.lo := by
  unfold State.writeReg; split <;> rfl
@[simp] theorem State.writeReg_pc (s : State) (r : Reg) (v : Word) : (s.writeReg r v).pc = s.pc := by
  unfold State.writeReg; split <;> rfl
@[simp] theorem State.writeReg_npc (s : State) (r : Reg) (v : Word) : (s.writeReg r v).npc = s.npc := by
  unfold State.writeReg; split <;> rfl
@[simp] theorem State.writeReg_inDelay (s : State) (r : Reg) (v : Word) : (s.writeReg r v).inDelay = s.inDelay := by
  unfold State.writeReg; split <;> rfl
@[simp] theorem State.writeReg_loadReg (s : State) (r : Reg) (v : Word) : (s.writeReg r v).loadReg = s.loadReg := by
  unfold State.writeReg; split <;> rfl
@[simp] theorem State.writeReg_mem (s : State) (r : Reg) (v : Word) : (s.writeReg r v).mem = s.mem := by
  unfold State.writeReg; split <;> rfl
@[simp] theorem State.writeReg_params (s : State) (r : Reg) (v : Word) : (s.writeReg r v).params = s.params := by
  unfold State.writeReg; split <;> rfl
@[simp] theorem State.writeReg_draws (s : State) (r : Reg) (v : Word) : (s.writeReg r v).draws = s.draws := by
  unfold State.writeReg; split <;> rfl
@[simp] theorem State.writeReg_lastTrap (s : State) (r : Reg) (v : Word) : (s.writeReg r v).lastTrap = s.lastTrap := by
  unfold State.writeReg; split <;> rfl

/-! ### Reading a register -/

/-- Reading depends on the register file alone. -/
theorem State.readReg_congr {s t : State} (h : t.regs = s.regs) (r : Reg) : t.readReg r = s.readReg r := by
  simp [State.readReg, h]

/-- `x[0]` reads as 0 (R11). -/
@[simp] theorem State.readReg_zero (s : State) : s.readReg 0#5 = 0#32 := by simp [State.readReg]

/-- A register after a write (R7, R11). -/
theorem State.readReg_writeReg (s : State) (r : Reg) (v : Word) (q : Reg) :
    (s.writeReg r v).readReg q = if q = r ∧ q ≠ 0#5 then v else s.readReg q := by
  unfold State.writeReg State.readReg
  by_cases hq : q = 0#5
  · simp [hq]
  by_cases hr : r = 0#5
  · have : q ≠ r := fun h => hq (h.trans hr)
    simp [hq, hr]
  · by_cases h : q = r
    · subst h; simp [hq]
    · have hn : r.toNat ≠ q.toNat := fun e => h (BitVec.eq_of_toNat_eq e.symm)
      simp [hq, hr, h, hn]

@[simp] theorem State.readReg_commit (s : State) (n : Word) (d : Bool) (l : Reg) (r : Reg) : (s.commit n d l).readReg r = s.readReg r := rfl
@[simp] theorem State.readReg_advance (s : State) (r : Reg) : (s.advance).readReg r = s.readReg r := rfl
@[simp] theorem State.readReg_advanceLoad (s : State) (x : Reg) (r : Reg) : (s.advanceLoad x).readReg r = s.readReg r := rfl
@[simp] theorem State.readReg_transferTo (s : State) (w : Word) (r : Reg) : (s.transferTo w).readReg r = s.readReg r := rfl
@[simp] theorem State.readReg_notTaken (s : State) (r : Reg) : (s.notTaken).readReg r = s.readReg r := rfl
@[simp] theorem State.readReg_afterDraw (s : State) (r : Reg) : (s.afterDraw).readReg r = s.readReg r := rfl
@[simp] theorem State.readReg_writeBytes (s : State) (a : Word) (bs : List Byte) (r : Reg) : (s.writeBytes a bs).readReg r = s.readReg r := rfl
@[simp] theorem State.readReg_write1 (s : State) (a : Word) (v : Byte) (r : Reg) : (s.write1 a v).readReg r = s.readReg r := rfl
@[simp] theorem State.readReg_write2 (s : State) (a : Word) (v : Half) (r : Reg) : (s.write2 a v).readReg r = s.readReg r := rfl
@[simp] theorem State.readReg_write4 (s : State) (a : Word) (v : Word) (r : Reg) : (s.write4 a v).readReg r = s.readReg r := rfl

/-! ### Reading a byte -/

/-- Reading a byte depends on memory alone. -/
theorem State.readByte_congr {s t : State} (h : t.mem = s.mem) (a : Word) : t.readByte a = s.readByte a := by
  simp [State.readByte, h]

@[simp] theorem State.readByte_commit (s : State) (n : Word) (d : Bool) (l : Reg) (b : Word) : (s.commit n d l).readByte b = s.readByte b := rfl
@[simp] theorem State.readByte_advance (s : State) (b : Word) : (s.advance).readByte b = s.readByte b := rfl
@[simp] theorem State.readByte_advanceLoad (s : State) (x : Reg) (b : Word) : (s.advanceLoad x).readByte b = s.readByte b := rfl
@[simp] theorem State.readByte_transferTo (s : State) (w : Word) (b : Word) : (s.transferTo w).readByte b = s.readByte b := rfl
@[simp] theorem State.readByte_notTaken (s : State) (b : Word) : (s.notTaken).readByte b = s.readByte b := rfl
@[simp] theorem State.readByte_afterDraw (s : State) (b : Word) : (s.afterDraw).readByte b = s.readByte b := rfl
@[simp] theorem State.readByte_writeReg (s : State) (r : Reg) (v : Word) (b : Word) :
    (s.writeReg r v).readByte b = s.readByte b := State.readByte_congr (s.writeReg_mem r v) b

end Sys2Proof.Machine
end

