-- ==== Sys2Proof/Laws/Memory.lean ====
section
/-! SUPPORT. Memory: what a byte reads as after a write, and that every operation keeps the canonical form. -/

namespace Sys2Proof.Machine

/-- A byte just listed is found, and no other address sees it. -/
theorem Memory.lookup_insert (m : Memory) (a b : Nat) (v : Byte) :
    (m.insert a v).lookup b = if a = b then some v else m.lookup b := by
  induction m with
  | nil => simp [Memory.insert, Memory.lookup]
  | cons c m ih =>
    obtain ⟨k, w⟩ := c
    unfold Memory.insert
    split
    · simp [Memory.lookup]
    · split
      · next h => subst h; by_cases hb : a = b <;> simp [Memory.lookup, hb]
      · next h =>
        by_cases hk : k = b
        · subst hk; simp [Memory.lookup, h]
        · simp [Memory.lookup, ih, hk]

/-- The addresses listed after an insertion. -/
theorem Memory.mem_insert {m : Memory} {a : Nat} {v : Byte} {c : Host.Cell} (h : c ∈ m.insert a v) :
    c = (a, v) ∨ c ∈ m := by
  induction m with
  | nil => simpa [Memory.insert] using h
  | cons d m ih =>
    obtain ⟨k, w⟩ := d
    unfold Memory.insert at h
    split at h
    · simpa using h
    · split at h
      · rcases List.mem_cons.1 h with h | h
        · exact .inl h
        · exact .inr (List.mem_cons_of_mem _ h)
      · rcases List.mem_cons.1 h with h | h
        · exact .inr (h ▸ List.mem_cons_self)
        · exact (ih h).imp_right (List.mem_cons_of_mem _)

/-- Insertion keeps the canonical form. -/
theorem Memory.insert_wf {m : Memory} {a : Nat} (v : Byte) (ha : a < 4294967296) (h : m.Wf) : (m.insert a v).Wf := by
  refine ⟨?_, fun c hc => (Memory.mem_insert hc).elim (fun e => e ▸ ha) (h.2 c)⟩
  have hp := h.1
  clear h
  induction m with
  | nil => simp [Memory.insert]
  | cons d m ih =>
    obtain ⟨k, w⟩ := d
    have hk := (List.pairwise_cons.1 hp).1
    have hm := (List.pairwise_cons.1 hp).2
    unfold Memory.insert
    split
    · next hlt =>
      refine List.pairwise_cons.2 ⟨fun c hc => ?_, hp⟩
      rcases List.mem_cons.1 hc with rfl | hc
      · exact hlt
      · exact Nat.lt_trans hlt (hk c hc)
    · split
      · next heq => subst heq; exact List.pairwise_cons.2 ⟨hk, hm⟩
      · next hge hne =>
        refine List.pairwise_cons.2 ⟨fun c hc => ?_, ih hm⟩
        rcases Memory.mem_insert hc with rfl | hc
        · simp only at *; omega
        · exact hk c hc

/-- Writing bytes keeps the canonical form. -/
theorem Memory.writeBytes_wf {m : Memory} (a : Word) (bs : List Byte) (h : m.Wf) : (m.writeBytes a bs).Wf := by
  induction bs generalizing m a with
  | nil => exact h
  | cons b bs ih => exact ih _ (Memory.insert_wf b a.isLt h)

/-- The memory after reset has the canonical form. -/
theorem resetWith_mem_wf (p : Params) : Memory.Wf (State.resetWith p).mem := by
  simp [State.resetWith, Memory.Wf]

/-- An address listed after a write of bytes was listed before or is one of the written addresses. -/
theorem Memory.mem_writeBytes {m : Memory} {a : Word} {bs : List Byte} {c : Host.Cell} (h : c ∈ m.writeBytes a bs) :
    (∃ k < bs.length, c.1 = (a + BitVec.ofNat 32 k).toNat) ∨ c ∈ m := by
  induction bs generalizing m a with
  | nil => exact .inr h
  | cons b bs ih =>
    rcases ih h with ⟨k, hk, e⟩ | h
    · refine .inl ⟨k + 1, by simpa using hk, ?_⟩
      rw [e]; congr 1; rw [BitVec.add_assoc]; congr 1
      apply BitVec.eq_of_toNat_eq; simp [BitVec.toNat_add, Nat.add_comm]
    · rcases Memory.mem_insert h with rfl | h
      · exact .inl ⟨0, by simp, by simp⟩
      · exact .inr h

/-- One byte written: that address reads it, every other reads as before. -/
theorem State.readByte_insert (s : State) (a b : Word) (v : Byte) :
    State.readByte { s with mem := s.mem.insert a.toNat v } b = if b = a then v else s.readByte b := by
  by_cases h : b = a
  · subst h; simp [State.readByte, Memory.lookup_insert]
  · have : ¬ a.toNat = b.toNat := fun e => h (BitVec.eq_of_toNat_eq e.symm)
    simp [State.readByte, Memory.lookup_insert, this, h]

/-- What every byte reads as after bytes have been written. -/
theorem State.readByte_writeBytes (s : State) (a : Word) (bs : List Byte) (h : bs.length < 4294967296) (b : Word) :
    (s.writeBytes a bs).readByte b = (bs[(b - a).toNat]?).getD (s.readByte b) := by
  induction bs generalizing s a with
  | nil => rfl
  | cons v bs ih =>
    have hl : bs.length < 4294967296 - 1 := by simp at h; omega
    have e : s.writeBytes a (v :: bs) = State.writeBytes { s with mem := s.mem.insert a.toNat v } (a + 1#32) bs := rfl
    rw [e, ih _ _ (by omega), State.readByte_insert]
    by_cases hb : b = a
    · subst hb
      have hn : bs[(b - (b + 1#32)).toNat]? = none := List.getElem?_eq_none (by
        have : b - (b + 1#32) = 4294967295#32 := by bv_omega
        rw [this]; simp; omega)
      rw [hn]; simp
    · have : (b - a).toNat = (b - (a + 1#32)).toNat + 1 := by bv_omega
      simp [this, hb]

/-- What every byte reads as after `MemWrite(a, 1, v)`. -/
theorem State.readByte_write1 (s : State) (a : Word) (v : Byte) (b : Word) :
    (s.write1 a v).readByte b = ([v][(b - a).toNat]?).getD (s.readByte b) :=
  s.readByte_writeBytes a _ (by simp) b

/-- What every byte reads as after `MemWrite(a, 2, v)`. -/
theorem State.readByte_write2 (s : State) (a : Word) (v : Half) (b : Word) :
    (s.write2 a v).readByte b = ((bytesOfHalf s.params.endian v)[(b - a).toNat]?).getD (s.readByte b) :=
  s.readByte_writeBytes a _ (by cases s.params.endian <;> simp [bytesOfHalf]) b

/-- What every byte reads as after `MemWrite(a, 4, v)`. -/
theorem State.readByte_write4 (s : State) (a : Word) (v : Word) (b : Word) :
    (s.write4 a v).readByte b = ((bytesOfWord s.params.endian v)[(b - a).toNat]?).getD (s.readByte b) :=
  s.readByte_writeBytes a _ (by cases s.params.endian <;> simp [bytesOfWord]) b

end Sys2Proof.Machine
end

