-- ==== Sys2Proof/Laws/Ops.lean ====
section
/-! SUPPORT. One lemma for each shared operation that says once everything it can answer; proofs cite it instead of
unfolding the operation. -/

namespace Sys2Proof.Machine

/-- The state a trap continues in when TRAP_VECTOR is `v` (R210). -/
def trapState (s : State) (v : Word) (e : Exception) (info : Word) : State :=
  { s with pc := v, npc := v + 4#32, inDelay := false, loadReg := 0#5, lastTrap := some (trapOf s e info) }

/-- Everything `raise` can answer. -/
theorem raise_cases (e : Exception) (info : Word) (s : State) :
    (s.params.trapVector = none ∧ raise e info s = .fault (.trap (trapOf s e info))) ∨
    ∃ v, s.params.trapVector = some v ∧ raise e info s = .next (trapState s v e info) := by
  unfold raise
  cases h : s.params.trapVector with
  | none => exact .inl ⟨rfl, rfl⟩
  | some v => exact .inr ⟨v, rfl, rfl⟩

/-- `raise` never refuses. -/
theorem raise_ne_refused (e : Exception) (info : Word) (s : State) (r : Refusal) : raise e info s ≠ .refused r := by
  rcases raise_cases e info s with ⟨-, h⟩ | ⟨v, -, h⟩ <;> simp [h]

/-- A next state of `raise` is the one at the vector. -/
theorem raise_next {e : Exception} {info : Word} {s t : State} (h : raise e info s = .next t) :
    ∃ v, s.params.trapVector = some v ∧ t = trapState s v e info := by
  rcases raise_cases e info s with ⟨-, h'⟩ | ⟨v, hv, h'⟩
  · simp [h'] at h
  · exact ⟨v, hv, by simpa [h'] using h.symm⟩

/-- A fault of `raise` is the terminal trap. -/
theorem raise_fault {e : Exception} {info : Word} {s : State} {f : Fault} (h : raise e info s = .fault f) :
    s.params.trapVector = none ∧ f = .trap (trapOf s e info) := by
  rcases raise_cases e info s with ⟨hv, h'⟩ | ⟨v, -, h'⟩
  · exact ⟨hv, by simpa [h'] using h.symm⟩
  · simp [h'] at h

/-- What `writeAndAdvance` answers. -/
@[simp] theorem writeAndAdvance_eq (s : State) (r : Reg) (v : Word) :
    writeAndAdvance s r v = .next (s.writeReg r v).advance := rfl

/-- What `writeHiLo` answers. -/
@[simp] theorem writeHiLo_eq (s : State) (hi lo : Word) :
    writeHiLo s hi lo = .next (State.advance { s with hi := hi, lo := lo }) := rfl

/-- What `drawHiLo` answers: LO is the next draw, HI the one after it. -/
@[simp] theorem drawHiLo_eq (s : State) :
    drawHiLo s = .next (State.advance { s with
      hi := Config.anyWord (s.draws + 1), lo := Config.anyWord s.draws, draws := s.draws + 2 }) := rfl

/-- What `finishLoad` answers. -/
@[simp] theorem finishLoad_eq (s : State) (rt : Reg) (v : Word) :
    finishLoad s rt v = .next ((s.writeReg rt v).advanceLoad rt) := rfl

/-- Everything `writeUnlessOverflow` can answer. -/
theorem writeUnlessOverflow_cases (s : State) (o : Bool) (r : Reg) (v : Word) :
    (o = true ∧ writeUnlessOverflow s o r v = raise .overflow s.pc s) ∨
    (o = false ∧ writeUnlessOverflow s o r v = .next (s.writeReg r v).advance) := by
  cases o
  · exact .inr ⟨rfl, rfl⟩
  · exact .inl ⟨rfl, rfl⟩

/-- Everything `checkedLoad` can answer. -/
theorem checkedLoad_cases (s : State) (n : Nat) (ea : Word) (x : StepOutcome) :
    (aligned n ea = false ∧ checkedLoad s n ea x = raise .addressErrorLoad ea s) ∨
    (aligned n ea = true ∧ s.mapped ea n = false ∧ checkedLoad s n ea x = .refused .unmapped) ∨
    (aligned n ea = true ∧ s.mapped ea n = true ∧ checkedLoad s n ea x = x) := by
  unfold checkedLoad
  cases h₁ : aligned n ea <;> cases h₂ : s.mapped ea n <;> simp

/-- Everything `checkedStore` can answer. -/
theorem checkedStore_cases (s : State) (n : Nat) (ea : Word) (x : StepOutcome) :
    (aligned n ea = false ∧ checkedStore s n ea x = raise .addressErrorStore ea s) ∨
    (aligned n ea = true ∧ s.mapped ea n = false ∧ checkedStore s n ea x = .refused .unmapped) ∨
    (aligned n ea = true ∧ s.mapped ea n = true ∧ s.touchesText ea n = true ∧
      checkedStore s n ea x = .refused .storeToText) ∨
    (aligned n ea = true ∧ s.mapped ea n = true ∧ s.touchesText ea n = false ∧ checkedStore s n ea x = x) := by
  unfold checkedStore
  cases h₁ : aligned n ea <;> cases h₂ : s.mapped ea n <;> cases h₃ : s.touchesText ea n <;> simp

/-- Everything `unlessInDelaySlot` can answer. -/
theorem unlessInDelaySlot_cases (s : State) (x : StepOutcome) :
    (s.inDelay = true ∧ unlessInDelaySlot s x = .refused .controlTransferInDelaySlot) ∨
    (s.inDelay = false ∧ unlessInDelaySlot s x = x) := by
  unfold unlessInDelaySlot
  cases h : s.inDelay <;> simp

/-- Everything `branchIf` can answer. -/
theorem branchIf_cases (s : State) (c : Bool) (imm : Imm16) :
    (s.inDelay = true ∧ branchIf s c imm = .refused .controlTransferInDelaySlot) ∨
    (s.inDelay = false ∧ c = true ∧ branchIf s c imm = .next (s.transferTo (branchTarget s imm))) ∨
    (s.inDelay = false ∧ c = false ∧ branchIf s c imm = .next s.notTaken) := by
  unfold branchIf
  rcases unlessInDelaySlot_cases s (.next (if c then s.transferTo (branchTarget s imm) else s.notTaken))
    with ⟨h, e⟩ | ⟨h, e⟩
  · exact .inl ⟨h, e⟩
  · cases c
    · exact .inr (.inr ⟨h, rfl, e⟩)
    · exact .inr (.inl ⟨h, rfl, e⟩)

/-- Everything `linkNotTaken` can do: leave `$31` or write the link, with one draw under LINK_NOT_TAKEN = draw. -/
theorem linkNotTaken_cases (s : State) :
    (s.params.linkNotTaken = .draw ∧ s.drawLink = true ∧
      linkNotTaken s = (s.writeReg linkReg (linkValue s)).afterDraw) ∨
    (s.params.linkNotTaken = .draw ∧ s.drawLink = false ∧ linkNotTaken s = s.afterDraw) ∨
    (s.params.linkNotTaken = .always ∧ linkNotTaken s = s.writeReg linkReg (linkValue s)) ∨
    (s.params.linkNotTaken = .onlyIfTaken ∧ linkNotTaken s = s) := by
  unfold linkNotTaken
  cases h : s.params.linkNotTaken <;> cases h' : s.drawLink <;> simp

/-- Everything `branchIfAndLink` can answer. -/
theorem branchIfAndLink_cases (s : State) (c : Bool) (imm : Imm16) :
    (s.inDelay = true ∧ branchIfAndLink s c imm = .refused .controlTransferInDelaySlot) ∨
    (s.inDelay = false ∧ c = true ∧
      branchIfAndLink s c imm = .next ((s.writeReg linkReg (linkValue s)).transferTo (branchTarget s imm))) ∨
    (s.inDelay = false ∧ c = false ∧ branchIfAndLink s c imm = .next (linkNotTaken s).notTaken) := by
  unfold branchIfAndLink
  rcases unlessInDelaySlot_cases s (.next (if c then (s.writeReg linkReg (linkValue s)).transferTo (branchTarget s imm)
    else (linkNotTaken s).notTaken)) with ⟨h, e⟩ | ⟨h, e⟩
  · exact .inl ⟨h, e⟩
  · cases c
    · exact .inr (.inr ⟨h, rfl, e⟩)
    · exact .inr (.inl ⟨h, rfl, e⟩)

/-- Everything `writeProduct` can answer. -/
theorem writeProduct_cases (s : State) (p : BitVec 64) :
    (s.params.multHi = .upper ∧ writeProduct s p = writeHiLo s (p.extractLsb' 32 32) (p.extractLsb' 0 32)) ∨
    (s.params.multHi = .any ∧ writeProduct s p = writeHiLo s.afterDraw s.drawWord (p.extractLsb' 0 32)) := by
  unfold writeProduct
  cases h : s.params.multHi <;> simp

/-- Everything `prepare` can answer, in the order of its checks (R208). -/
theorem prepare_cases (s : State) :
    (aligned 4 s.pc = false ∧ prepare s = .stop (raise .addressErrorFetch s.pc s)) ∨
    (aligned 4 s.pc = true ∧ s.mapped s.pc 4 = false ∧ prepare s = .stop (.refused .unmapped)) ∨
    (aligned 4 s.pc = true ∧ s.mapped s.pc 4 = true ∧ prepare s = prepareDecoded s (s.read4 s.pc)) := by
  unfold prepare fetchWord
  cases h₁ : aligned 4 s.pc <;> cases h₂ : s.mapped s.pc 4 <;> simp

/-- Everything `prepareDecoded` can answer. -/
theorem prepareDecoded_cases (s : State) (w : Word) :
    (decode s.params w = .reserved ∧ prepareDecoded s w = .stop (raise .reservedInstruction w s)) ∨
    (decode s.params w = .nonzeroConstantField ∧ prepareDecoded s w = .stop (.refused .nonzeroConstantField)) ∨
    ∃ i, decode s.params w = .instr i ∧
      ((loadUse s i = true ∧ prepareDecoded s w = .stop (.refused .loadUse)) ∨
        (loadUse s i = false ∧ prepareDecoded s w = .run i)) := by
  unfold prepareDecoded
  cases h : decode s.params w with
  | reserved => exact .inl ⟨rfl, rfl⟩
  | nonzeroConstantField => exact .inr (.inl ⟨rfl, rfl⟩)
  | instr i => cases h' : loadUse s i <;> simp [h']

end Sys2Proof.Machine
end

