-- ==== Sys2Proof/Laws/PerInstr.lean ====
section
/-! SUPPORT. The family of statements made per instruction. -/

namespace Sys2Proof.Laws

/-- The canonical word of an instruction fits the row of the opcode table that has its mnemonic
(`30_encoding.md` R64). -/
def EncodingFitsRow.Statement (i : Instr) : Prop :=
  ∃ r ∈ opcodeRows, r.mnemonic = i.mnemonic ∧ r.fits (encode i) = true

theorem EncodingFitsRow.add (rd : Reg) (rs : Reg) (rt : Reg) : EncodingFitsRow.Statement (.add rd rs rt) :=
  ⟨⟨.ADD, 0x00000020#32, 0xFC00003F#32⟩, by decide, rfl,
    fits_wordR .ADD rs rt rd 0 0 0 0 0 0b100000#6 (by decide) (by simp [wordR])⟩

theorem EncodingFitsRow.addi (rt : Reg) (rs : Reg) (imm : Imm16) : EncodingFitsRow.Statement (.addi rt rs imm) :=
  ⟨⟨.ADDI, 0x20000000#32, 0xFC000000#32⟩, by decide, rfl,
    fits_wordI .ADDI 0b001000#6 rs rt 0 imm (by decide) (by simp [wordI])⟩

theorem EncodingFitsRow.addiu (rt : Reg) (rs : Reg) (imm : Imm16) : EncodingFitsRow.Statement (.addiu rt rs imm) :=
  ⟨⟨.ADDIU, 0x24000000#32, 0xFC000000#32⟩, by decide, rfl,
    fits_wordI .ADDIU 0b001001#6 rs rt 0 imm (by decide) (by simp [wordI])⟩

theorem EncodingFitsRow.addu (rd : Reg) (rs : Reg) (rt : Reg) : EncodingFitsRow.Statement (.addu rd rs rt) :=
  ⟨⟨.ADDU, 0x00000021#32, 0xFC0007FF#32⟩, by decide, rfl,
    fits_wordR .ADDU rs rt rd 0 0 0 0 31 0b100001#6 (by decide) (by simp [wordR])⟩

theorem EncodingFitsRow.and (rd : Reg) (rs : Reg) (rt : Reg) : EncodingFitsRow.Statement (.and rd rs rt) :=
  ⟨⟨.AND, 0x00000024#32, 0xFC0007FF#32⟩, by decide, rfl,
    fits_wordR .AND rs rt rd 0 0 0 0 31 0b100100#6 (by decide) (by simp [wordR])⟩

theorem EncodingFitsRow.andi (rt : Reg) (rs : Reg) (imm : Imm16) : EncodingFitsRow.Statement (.andi rt rs imm) :=
  ⟨⟨.ANDI, 0x30000000#32, 0xFC000000#32⟩, by decide, rfl,
    fits_wordI .ANDI 0b001100#6 rs rt 0 imm (by decide) (by simp [wordI])⟩

theorem EncodingFitsRow.beq (rs : Reg) (rt : Reg) (imm : Imm16) : EncodingFitsRow.Statement (.beq rs rt imm) :=
  ⟨⟨.BEQ, 0x10000000#32, 0xFC000000#32⟩, by decide, rfl,
    fits_wordI .BEQ 0b000100#6 rs rt 0 imm (by decide) (by simp [wordI])⟩

theorem EncodingFitsRow.bgez (rs : Reg) (imm : Imm16) : EncodingFitsRow.Statement (.bgez rs imm) :=
  ⟨⟨.BGEZ, 0x04010000#32, 0xFC1F0000#32⟩, by decide, rfl,
    fits_wordI .BGEZ 0b000001#6 rs 0b00001#5 31 imm (by decide) (by simp [wordI])⟩

theorem EncodingFitsRow.bgezal (rs : Reg) (imm : Imm16) : EncodingFitsRow.Statement (.bgezal rs imm) :=
  ⟨⟨.BGEZAL, 0x04110000#32, 0xFC1F0000#32⟩, by decide, rfl,
    fits_wordI .BGEZAL 0b000001#6 rs 0b10001#5 31 imm (by decide) (by simp [wordI])⟩

theorem EncodingFitsRow.bgtz (rs : Reg) (imm : Imm16) : EncodingFitsRow.Statement (.bgtz rs imm) :=
  ⟨⟨.BGTZ, 0x1C000000#32, 0xFC1F0000#32⟩, by decide, rfl,
    fits_wordI .BGTZ 0b000111#6 rs 0b00000#5 31 imm (by decide) (by simp [wordI])⟩

theorem EncodingFitsRow.blez (rs : Reg) (imm : Imm16) : EncodingFitsRow.Statement (.blez rs imm) :=
  ⟨⟨.BLEZ, 0x18000000#32, 0xFC1F0000#32⟩, by decide, rfl,
    fits_wordI .BLEZ 0b000110#6 rs 0b00000#5 31 imm (by decide) (by simp [wordI])⟩

theorem EncodingFitsRow.bltz (rs : Reg) (imm : Imm16) : EncodingFitsRow.Statement (.bltz rs imm) :=
  ⟨⟨.BLTZ, 0x04000000#32, 0xFC1F0000#32⟩, by decide, rfl,
    fits_wordI .BLTZ 0b000001#6 rs 0b00000#5 31 imm (by decide) (by simp [wordI])⟩

theorem EncodingFitsRow.bltzal (rs : Reg) (imm : Imm16) : EncodingFitsRow.Statement (.bltzal rs imm) :=
  ⟨⟨.BLTZAL, 0x04100000#32, 0xFC1F0000#32⟩, by decide, rfl,
    fits_wordI .BLTZAL 0b000001#6 rs 0b10000#5 31 imm (by decide) (by simp [wordI])⟩

theorem EncodingFitsRow.bne (rs : Reg) (rt : Reg) (imm : Imm16) : EncodingFitsRow.Statement (.bne rs rt imm) :=
  ⟨⟨.BNE, 0x14000000#32, 0xFC000000#32⟩, by decide, rfl,
    fits_wordI .BNE 0b000101#6 rs rt 0 imm (by decide) (by simp [wordI])⟩

theorem EncodingFitsRow.brk : EncodingFitsRow.Statement (.brk) :=
  ⟨⟨.BREAK, 0x0000000D#32, 0xFC00003F#32⟩, by decide, rfl,
    fits_wordR .BREAK 0 0 0 0 0 0 0 0 0b001101#6 (by decide) (by simp [wordR])⟩

theorem EncodingFitsRow.div (rs : Reg) (rt : Reg) : EncodingFitsRow.Statement (.div rs rt) :=
  ⟨⟨.DIV, 0x0000001A#32, 0xFC00FFFF#32⟩, by decide, rfl,
    fits_wordR .DIV rs rt 0 0 0 31 0 31 0b011010#6 (by decide) (by simp [wordR])⟩

theorem EncodingFitsRow.divu (rs : Reg) (rt : Reg) : EncodingFitsRow.Statement (.divu rs rt) :=
  ⟨⟨.DIVU, 0x0000001B#32, 0xFC00FFFF#32⟩, by decide, rfl,
    fits_wordR .DIVU rs rt 0 0 0 31 0 31 0b011011#6 (by decide) (by simp [wordR])⟩

theorem EncodingFitsRow.j (imm26 : Imm26) : EncodingFitsRow.Statement (.j imm26) :=
  ⟨⟨.J, 0x08000000#32, 0xFC000000#32⟩, by decide, rfl,
    fits_wordJ .J 0b000010#6 imm26 (by decide) (by simp [wordJ])⟩

theorem EncodingFitsRow.jal (imm26 : Imm26) : EncodingFitsRow.Statement (.jal imm26) :=
  ⟨⟨.JAL, 0x0C000000#32, 0xFC000000#32⟩, by decide, rfl,
    fits_wordJ .JAL 0b000011#6 imm26 (by decide) (by simp [wordJ])⟩

theorem EncodingFitsRow.jalr (rd : Reg) (rs : Reg) : EncodingFitsRow.Statement (.jalr rd rs) :=
  ⟨⟨.JALR, 0x00000009#32, 0xFC1F07FF#32⟩, by decide, rfl,
    fits_wordR .JALR rs 0 rd 0 31 0 0 31 0b001001#6 (by decide) (by simp [wordR])⟩

theorem EncodingFitsRow.jr (rs : Reg) : EncodingFitsRow.Statement (.jr rs) :=
  ⟨⟨.JR, 0x00000008#32, 0xFC1FFFFF#32⟩, by decide, rfl,
    fits_wordR .JR rs 0 0 0 31 31 0 31 0b001000#6 (by decide) (by simp [wordR])⟩

theorem EncodingFitsRow.lb (rt : Reg) (imm : Imm16) (rs : Reg) : EncodingFitsRow.Statement (.lb rt imm rs) :=
  ⟨⟨.LB, 0x80000000#32, 0xFC000000#32⟩, by decide, rfl,
    fits_wordI .LB 0b100000#6 rs rt 0 imm (by decide) (by simp [wordI])⟩

theorem EncodingFitsRow.lbu (rt : Reg) (imm : Imm16) (rs : Reg) : EncodingFitsRow.Statement (.lbu rt imm rs) :=
  ⟨⟨.LBU, 0x90000000#32, 0xFC000000#32⟩, by decide, rfl,
    fits_wordI .LBU 0b100100#6 rs rt 0 imm (by decide) (by simp [wordI])⟩

theorem EncodingFitsRow.lh (rt : Reg) (imm : Imm16) (rs : Reg) : EncodingFitsRow.Statement (.lh rt imm rs) :=
  ⟨⟨.LH, 0x84000000#32, 0xFC000000#32⟩, by decide, rfl,
    fits_wordI .LH 0b100001#6 rs rt 0 imm (by decide) (by simp [wordI])⟩

theorem EncodingFitsRow.lhu (rt : Reg) (imm : Imm16) (rs : Reg) : EncodingFitsRow.Statement (.lhu rt imm rs) :=
  ⟨⟨.LHU, 0x94000000#32, 0xFC000000#32⟩, by decide, rfl,
    fits_wordI .LHU 0b100101#6 rs rt 0 imm (by decide) (by simp [wordI])⟩

theorem EncodingFitsRow.lui (rt : Reg) (imm : Imm16) : EncodingFitsRow.Statement (.lui rt imm) :=
  ⟨⟨.LUI, 0x3C000000#32, 0xFC000000#32⟩, by decide, rfl,
    fits_wordI .LUI 0b001111#6 0 rt 0 imm (by decide) (by simp [wordI])⟩

theorem EncodingFitsRow.lw (rt : Reg) (imm : Imm16) (rs : Reg) : EncodingFitsRow.Statement (.lw rt imm rs) :=
  ⟨⟨.LW, 0x8C000000#32, 0xFC000000#32⟩, by decide, rfl,
    fits_wordI .LW 0b100011#6 rs rt 0 imm (by decide) (by simp [wordI])⟩

theorem EncodingFitsRow.mfhi (rd : Reg) : EncodingFitsRow.Statement (.mfhi rd) :=
  ⟨⟨.MFHI, 0x00000010#32, 0xFFFF07FF#32⟩, by decide, rfl,
    fits_wordR .MFHI 0 0 rd 31 31 0 0 31 0b010000#6 (by decide) (by simp [wordR])⟩

theorem EncodingFitsRow.mflo (rd : Reg) : EncodingFitsRow.Statement (.mflo rd) :=
  ⟨⟨.MFLO, 0x00000012#32, 0xFFFF07FF#32⟩, by decide, rfl,
    fits_wordR .MFLO 0 0 rd 31 31 0 0 31 0b010010#6 (by decide) (by simp [wordR])⟩

theorem EncodingFitsRow.mthi (rs : Reg) : EncodingFitsRow.Statement (.mthi rs) :=
  ⟨⟨.MTHI, 0x00000011#32, 0xFC1FFFFF#32⟩, by decide, rfl,
    fits_wordR .MTHI rs 0 0 0 31 31 0 31 0b010001#6 (by decide) (by simp [wordR])⟩

theorem EncodingFitsRow.mtlo (rs : Reg) : EncodingFitsRow.Statement (.mtlo rs) :=
  ⟨⟨.MTLO, 0x00000013#32, 0xFC1FFFFF#32⟩, by decide, rfl,
    fits_wordR .MTLO rs 0 0 0 31 31 0 31 0b010011#6 (by decide) (by simp [wordR])⟩

theorem EncodingFitsRow.mult (rs : Reg) (rt : Reg) : EncodingFitsRow.Statement (.mult rs rt) :=
  ⟨⟨.MULT, 0x00000018#32, 0xFC00FFFF#32⟩, by decide, rfl,
    fits_wordR .MULT rs rt 0 0 0 31 0 31 0b011000#6 (by decide) (by simp [wordR])⟩

theorem EncodingFitsRow.multu (rs : Reg) (rt : Reg) : EncodingFitsRow.Statement (.multu rs rt) :=
  ⟨⟨.MULTU, 0x00000019#32, 0xFC00FFFF#32⟩, by decide, rfl,
    fits_wordR .MULTU rs rt 0 0 0 31 0 31 0b011001#6 (by decide) (by simp [wordR])⟩

theorem EncodingFitsRow.nor (rd : Reg) (rs : Reg) (rt : Reg) : EncodingFitsRow.Statement (.nor rd rs rt) :=
  ⟨⟨.NOR, 0x00000027#32, 0xFC0007FF#32⟩, by decide, rfl,
    fits_wordR .NOR rs rt rd 0 0 0 0 31 0b100111#6 (by decide) (by simp [wordR])⟩

theorem EncodingFitsRow.or (rd : Reg) (rs : Reg) (rt : Reg) : EncodingFitsRow.Statement (.or rd rs rt) :=
  ⟨⟨.OR, 0x00000025#32, 0xFC0007FF#32⟩, by decide, rfl,
    fits_wordR .OR rs rt rd 0 0 0 0 31 0b100101#6 (by decide) (by simp [wordR])⟩

theorem EncodingFitsRow.ori (rt : Reg) (rs : Reg) (imm : Imm16) : EncodingFitsRow.Statement (.ori rt rs imm) :=
  ⟨⟨.ORI, 0x34000000#32, 0xFC000000#32⟩, by decide, rfl,
    fits_wordI .ORI 0b001101#6 rs rt 0 imm (by decide) (by simp [wordI])⟩

theorem EncodingFitsRow.sb (rt : Reg) (imm : Imm16) (rs : Reg) : EncodingFitsRow.Statement (.sb rt imm rs) :=
  ⟨⟨.SB, 0xA0000000#32, 0xFC000000#32⟩, by decide, rfl,
    fits_wordI .SB 0b101000#6 rs rt 0 imm (by decide) (by simp [wordI])⟩

theorem EncodingFitsRow.sh (rt : Reg) (imm : Imm16) (rs : Reg) : EncodingFitsRow.Statement (.sh rt imm rs) :=
  ⟨⟨.SH, 0xA4000000#32, 0xFC000000#32⟩, by decide, rfl,
    fits_wordI .SH 0b101001#6 rs rt 0 imm (by decide) (by simp [wordI])⟩

theorem EncodingFitsRow.sll (rd : Reg) (rt : Reg) (sh : Shamt) : EncodingFitsRow.Statement (.sll rd rt sh) :=
  ⟨⟨.SLL, 0x00000000#32, 0xFC00003F#32⟩, by decide, rfl,
    fits_wordR .SLL 0 rt rd 0 0 0 sh 0 0b000000#6 (by decide) (by simp [wordR])⟩

theorem EncodingFitsRow.sllv (rd : Reg) (rt : Reg) (rs : Reg) : EncodingFitsRow.Statement (.sllv rd rt rs) :=
  ⟨⟨.SLLV, 0x00000004#32, 0xFC00003F#32⟩, by decide, rfl,
    fits_wordR .SLLV rs rt rd 0 0 0 0 0 0b000100#6 (by decide) (by simp [wordR])⟩

theorem EncodingFitsRow.slt (rd : Reg) (rs : Reg) (rt : Reg) : EncodingFitsRow.Statement (.slt rd rs rt) :=
  ⟨⟨.SLT, 0x0000002A#32, 0xFC0007FF#32⟩, by decide, rfl,
    fits_wordR .SLT rs rt rd 0 0 0 0 31 0b101010#6 (by decide) (by simp [wordR])⟩

theorem EncodingFitsRow.slti (rt : Reg) (rs : Reg) (imm : Imm16) : EncodingFitsRow.Statement (.slti rt rs imm) :=
  ⟨⟨.SLTI, 0x28000000#32, 0xFC000000#32⟩, by decide, rfl,
    fits_wordI .SLTI 0b001010#6 rs rt 0 imm (by decide) (by simp [wordI])⟩

theorem EncodingFitsRow.sltiu (rt : Reg) (rs : Reg) (imm : Imm16) : EncodingFitsRow.Statement (.sltiu rt rs imm) :=
  ⟨⟨.SLTIU, 0x2C000000#32, 0xFC000000#32⟩, by decide, rfl,
    fits_wordI .SLTIU 0b001011#6 rs rt 0 imm (by decide) (by simp [wordI])⟩

theorem EncodingFitsRow.sltu (rd : Reg) (rs : Reg) (rt : Reg) : EncodingFitsRow.Statement (.sltu rd rs rt) :=
  ⟨⟨.SLTU, 0x0000002B#32, 0xFC0007FF#32⟩, by decide, rfl,
    fits_wordR .SLTU rs rt rd 0 0 0 0 31 0b101011#6 (by decide) (by simp [wordR])⟩

theorem EncodingFitsRow.sra (rd : Reg) (rt : Reg) (sh : Shamt) : EncodingFitsRow.Statement (.sra rd rt sh) :=
  ⟨⟨.SRA, 0x00000003#32, 0xFC00003F#32⟩, by decide, rfl,
    fits_wordR .SRA 0 rt rd 0 0 0 sh 0 0b000011#6 (by decide) (by simp [wordR])⟩

theorem EncodingFitsRow.srav (rd : Reg) (rt : Reg) (rs : Reg) : EncodingFitsRow.Statement (.srav rd rt rs) :=
  ⟨⟨.SRAV, 0x00000007#32, 0xFC00003F#32⟩, by decide, rfl,
    fits_wordR .SRAV rs rt rd 0 0 0 0 0 0b000111#6 (by decide) (by simp [wordR])⟩

theorem EncodingFitsRow.srl (rd : Reg) (rt : Reg) (sh : Shamt) : EncodingFitsRow.Statement (.srl rd rt sh) :=
  ⟨⟨.SRL, 0x00000002#32, 0xFC00003F#32⟩, by decide, rfl,
    fits_wordR .SRL 0 rt rd 0 0 0 sh 0 0b000010#6 (by decide) (by simp [wordR])⟩

theorem EncodingFitsRow.srlv (rd : Reg) (rt : Reg) (rs : Reg) : EncodingFitsRow.Statement (.srlv rd rt rs) :=
  ⟨⟨.SRLV, 0x00000006#32, 0xFC0007FF#32⟩, by decide, rfl,
    fits_wordR .SRLV rs rt rd 0 0 0 0 31 0b000110#6 (by decide) (by simp [wordR])⟩

theorem EncodingFitsRow.sub (rd : Reg) (rs : Reg) (rt : Reg) : EncodingFitsRow.Statement (.sub rd rs rt) :=
  ⟨⟨.SUB, 0x00000022#32, 0xFC0007FF#32⟩, by decide, rfl,
    fits_wordR .SUB rs rt rd 0 0 0 0 31 0b100010#6 (by decide) (by simp [wordR])⟩

theorem EncodingFitsRow.subu (rd : Reg) (rs : Reg) (rt : Reg) : EncodingFitsRow.Statement (.subu rd rs rt) :=
  ⟨⟨.SUBU, 0x00000023#32, 0xFC0007FF#32⟩, by decide, rfl,
    fits_wordR .SUBU rs rt rd 0 0 0 0 31 0b100011#6 (by decide) (by simp [wordR])⟩

theorem EncodingFitsRow.sw (rt : Reg) (imm : Imm16) (rs : Reg) : EncodingFitsRow.Statement (.sw rt imm rs) :=
  ⟨⟨.SW, 0xAC000000#32, 0xFC000000#32⟩, by decide, rfl,
    fits_wordI .SW 0b101011#6 rs rt 0 imm (by decide) (by simp [wordI])⟩

theorem EncodingFitsRow.syscall : EncodingFitsRow.Statement (.syscall) :=
  ⟨⟨.SYSCALL, 0x0000000C#32, 0xFC00003F#32⟩, by decide, rfl,
    fits_wordR .SYSCALL 0 0 0 0 0 0 0 0 0b001100#6 (by decide) (by simp [wordR])⟩

theorem EncodingFitsRow.xor (rd : Reg) (rs : Reg) (rt : Reg) : EncodingFitsRow.Statement (.xor rd rs rt) :=
  ⟨⟨.XOR, 0x00000026#32, 0xFC00003F#32⟩, by decide, rfl,
    fits_wordR .XOR rs rt rd 0 0 0 0 0 0b100110#6 (by decide) (by simp [wordR])⟩

theorem EncodingFitsRow.xori (rt : Reg) (rs : Reg) (imm : Imm16) : EncodingFitsRow.Statement (.xori rt rs imm) :=
  ⟨⟨.XORI, 0x38000000#32, 0xFC000000#32⟩, by decide, rfl,
    fits_wordI .XORI 0b001110#6 rs rt 0 imm (by decide) (by simp [wordI])⟩

end Sys2Proof.Laws
end

