-- ==== Sys2Proof/Tests/Slice0.lean ====
section
/-! SUPPORT. Tests: every expected value is one of `spec/95_test_vectors.md` or worked out by hand from the rule named. Then,
for each obligation with hypotheses, a witness that meets them (`test_witness_<obligation>`). -/

namespace Sys2Proof.Tests

open Sys2Proof Sys2Proof.Machine

/-! ### Helpers -/

/-- The parameters under which `95_test_vectors.md` states its vectors, with RESET_PC = 0x100, where they start. -/
def testParams : Params := { Params.default with resetPc := 0x100#32, loadDelay := .refuse }

/-- Ready to run at 0x100 under the parameters `p`, with values in `$1` and `$2`. -/
def stateUnder (p : Params) (x1 x2 : Word) : State := ((State.resetWith p).writeReg 1#5 x1).writeReg 2#5 x2

/-- The same under the test parameters. -/
def stateWith (x1 x2 : Word) : State := stateUnder testParams x1 x2

/-- One step, with a word placed at `pc`. -/
def runWord (w : Nat) (s : State) : StepOutcome := step (s.withFetchWord 32 w)

/-- A register of the next state. -/
def regOf (o : StepOutcome) (r : Reg) : Option Word :=
  match o with
  | .next t => some (t.readReg r)
  | .fault _ => none
  | .refused _ => none

/-- HI and LO of the next state. -/
def hiLoOf (o : StepOutcome) : Option (Word × Word) :=
  match o with
  | .next t => some (t.hi, t.lo)
  | .fault _ => none
  | .refused _ => none

/-- `pc`, `npc` and `in_delay` of the next state. -/
def countersOf (o : StepOutcome) : Option (Word × Word × Bool) :=
  match o with
  | .next t => some (t.pc, t.npc, t.inDelay)
  | .fault _ => none
  | .refused _ => none

/-- `load_reg` of the next state. -/
def loadRegOf (o : StepOutcome) : Option Reg :=
  match o with
  | .next t => some t.loadReg
  | .fault _ => none
  | .refused _ => none

/-- The four bytes at an address in the next state. -/
def bytesOf (o : StepOutcome) (a : Word) : Option (List Byte) :=
  match o with
  | .next t => some [t.readByte a, t.readByte (a + 1#32), t.readByte (a + 2#32), t.readByte (a + 3#32)]
  | .fault _ => none
  | .refused _ => none

/-- The trap that the step ended in: exception, `epc`, `in_delay`, `info`. -/
def trapIn (o : StepOutcome) : Option (Exception × Word × Bool × Word) :=
  match o with
  | .next _ => none
  | .fault (.trap r) => some (r.cause, r.epc, r.inDelay, r.info)
  | .refused _ => none

/-- The reason of a refusal. -/
def refusalIn (o : StepOutcome) : Option Refusal :=
  match o with
  | .next _ => none
  | .fault _ => none
  | .refused r => some r

/-! ### Well-formedness -/

/-- R169: JALR with one register twice is ill-formed. -/
theorem test_wellFormed_refuses : (Instr.jalr 2#5 2#5).wellFormed = false := by decide

/-- R169: register 0 twice, or two registers, is well-formed. -/
theorem test_wellFormed_accepts :
    (Instr.jalr 0#5 0#5).wellFormed = true ∧ (Instr.jalr 31#5 2#5).wellFormed = true ∧
    (Instr.add 1#5 1#5 1#5).wellFormed = true := by decide

/-! ### Decoding: the words of `95_test_vectors.md` 2.1, bit 31 on the left -/

/-- The word decodes to the instruction, and is what the encoder writes for it. -/
abbrev ReadsAndWrites (w : Word) (i : Instr) : Prop := decode Params.default w = .instr i ∧ encode i = w

theorem test_decode_add : ReadsAndWrites 0b00000000001000100001100000100000#32 (.add 3#5 1#5 2#5) := by decide
theorem test_decode_addi : ReadsAndWrites 0b00100000001000101111111111111111#32 (.addi 2#5 1#5 0xFFFF#16) := by decide
theorem test_decode_addiu : ReadsAndWrites 0b00100100001000101000000000000000#32 (.addiu 2#5 1#5 0x8000#16) := by decide
theorem test_decode_addu : ReadsAndWrites 0b00000000001000100001100000100001#32 (.addu 3#5 1#5 2#5) := by decide
theorem test_decode_and : ReadsAndWrites 0b00000000001000100001100000100100#32 (.and 3#5 1#5 2#5) := by decide
theorem test_decode_andi : ReadsAndWrites 0b00110000001000101111111100000000#32 (.andi 2#5 1#5 0xFF00#16) := by decide
theorem test_decode_beq : ReadsAndWrites 0b00010000001000100000000000000011#32 (.beq 1#5 2#5 0x0003#16) := by decide
theorem test_decode_bgez : ReadsAndWrites 0b00000100001000010000000000000100#32 (.bgez 1#5 0x0004#16) := by decide
theorem test_decode_bgezal : ReadsAndWrites 0b00000100001100010000000000000100#32 (.bgezal 1#5 0x0004#16) := by decide
theorem test_decode_bgtz : ReadsAndWrites 0b00011100001000000000000000000100#32 (.bgtz 1#5 0x0004#16) := by decide
theorem test_decode_blez : ReadsAndWrites 0b00011000001000000000000000000100#32 (.blez 1#5 0x0004#16) := by decide
theorem test_decode_bltz : ReadsAndWrites 0b00000100001000001111111111111100#32 (.bltz 1#5 0xFFFC#16) := by decide
theorem test_decode_bltzal : ReadsAndWrites 0b00000100001100000000000000000100#32 (.bltzal 1#5 0x0004#16) := by decide
theorem test_decode_bne : ReadsAndWrites 0b00010100001000101111111111111110#32 (.bne 1#5 2#5 0xFFFE#16) := by decide
theorem test_decode_brk : ReadsAndWrites 0b00000000000000000000000000001101#32 (.brk) := by decide
theorem test_decode_div : ReadsAndWrites 0b00000000001000100000000000011010#32 (.div 1#5 2#5) := by decide
theorem test_decode_divu : ReadsAndWrites 0b00000000001000100000000000011011#32 (.divu 1#5 2#5) := by decide
theorem test_decode_j : ReadsAndWrites 0b00001000000000000000000100000000#32 (.j 0x100#26) := by decide
theorem test_decode_jal : ReadsAndWrites 0b00001100000000000000000100000000#32 (.jal 0x100#26) := by decide
theorem test_decode_jalr : ReadsAndWrites 0b00000000010000001111100000001001#32 (.jalr 31#5 2#5) := by decide
theorem test_decode_jr : ReadsAndWrites 0b00000011111000000000000000001000#32 (.jr 31#5) := by decide
theorem test_decode_lb : ReadsAndWrites 0b10000000001000100000000000000011#32 (.lb 2#5 0x0003#16 1#5) := by decide
theorem test_decode_lbu : ReadsAndWrites 0b10010000001000100000000000000011#32 (.lbu 2#5 0x0003#16 1#5) := by decide
theorem test_decode_lh : ReadsAndWrites 0b10000100001000100000000000000010#32 (.lh 2#5 0x0002#16 1#5) := by decide
theorem test_decode_lhu : ReadsAndWrites 0b10010100001000100000000000000010#32 (.lhu 2#5 0x0002#16 1#5) := by decide
theorem test_decode_lui : ReadsAndWrites 0b00111100000000100001001000110100#32 (.lui 2#5 0x1234#16) := by decide
theorem test_decode_lw : ReadsAndWrites 0b10001100001000101111111111111100#32 (.lw 2#5 0xFFFC#16 1#5) := by decide
theorem test_decode_mfhi : ReadsAndWrites 0b00000000000000000001100000010000#32 (.mfhi 3#5) := by decide
theorem test_decode_mflo : ReadsAndWrites 0b00000000000000000001100000010010#32 (.mflo 3#5) := by decide
theorem test_decode_mthi : ReadsAndWrites 0b00000000001000000000000000010001#32 (.mthi 1#5) := by decide
theorem test_decode_mtlo : ReadsAndWrites 0b00000000001000000000000000010011#32 (.mtlo 1#5) := by decide
theorem test_decode_mult : ReadsAndWrites 0b00000000001000100000000000011000#32 (.mult 1#5 2#5) := by decide
theorem test_decode_multu : ReadsAndWrites 0b00000000001000100000000000011001#32 (.multu 1#5 2#5) := by decide
theorem test_decode_nor : ReadsAndWrites 0b00000000001000100001100000100111#32 (.nor 3#5 1#5 2#5) := by decide
theorem test_decode_or : ReadsAndWrites 0b00000000001000100001100000100101#32 (.or 3#5 1#5 2#5) := by decide
theorem test_decode_ori : ReadsAndWrites 0b00110100001000101000000000000000#32 (.ori 2#5 1#5 0x8000#16) := by decide
theorem test_decode_sb : ReadsAndWrites 0b10100000001000100000000000000011#32 (.sb 2#5 0x0003#16 1#5) := by decide
theorem test_decode_sh : ReadsAndWrites 0b10100100001000100000000000000010#32 (.sh 2#5 0x0002#16 1#5) := by decide
theorem test_decode_sll : ReadsAndWrites 0b00000000000000010001000100000000#32 (.sll 2#5 1#5 4#5) := by decide
theorem test_decode_sllv : ReadsAndWrites 0b00000000010000010001100000000100#32 (.sllv 3#5 1#5 2#5) := by decide
theorem test_decode_slt : ReadsAndWrites 0b00000000001000100001100000101010#32 (.slt 3#5 1#5 2#5) := by decide
theorem test_decode_slti : ReadsAndWrites 0b00101000001000101111111111111111#32 (.slti 2#5 1#5 0xFFFF#16) := by decide
theorem test_decode_sltiu : ReadsAndWrites 0b00101100001000101111111111111111#32 (.sltiu 2#5 1#5 0xFFFF#16) := by decide
theorem test_decode_sltu : ReadsAndWrites 0b00000000001000100001100000101011#32 (.sltu 3#5 1#5 2#5) := by decide
theorem test_decode_sra : ReadsAndWrites 0b00000000000000010001000100000011#32 (.sra 2#5 1#5 4#5) := by decide
theorem test_decode_srav : ReadsAndWrites 0b00000000010000010001100000000111#32 (.srav 3#5 1#5 2#5) := by decide
theorem test_decode_srl : ReadsAndWrites 0b00000000000000010001000100000010#32 (.srl 2#5 1#5 4#5) := by decide
theorem test_decode_srlv : ReadsAndWrites 0b00000000010000010001100000000110#32 (.srlv 3#5 1#5 2#5) := by decide
theorem test_decode_sub : ReadsAndWrites 0b00000000001000100001100000100010#32 (.sub 3#5 1#5 2#5) := by decide
theorem test_decode_subu : ReadsAndWrites 0b00000000001000100001100000100011#32 (.subu 3#5 1#5 2#5) := by decide
theorem test_decode_sw : ReadsAndWrites 0b10101100001000100000000000001000#32 (.sw 2#5 0x0008#16 1#5) := by decide
theorem test_decode_syscall : ReadsAndWrites 0b00000000000000000000000000001100#32 (.syscall) := by decide
theorem test_decode_xor : ReadsAndWrites 0b00000000001000100001100000100110#32 (.xor 3#5 1#5 2#5) := by decide
theorem test_decode_xori : ReadsAndWrites 0b00111000001000101111111111111111#32 (.xori 2#5 1#5 0xFFFF#16) := by decide

/-- `95_test_vectors.md` 2.2, the words marked RI. -/
theorem test_decode_reserved :
    [0x88220000#32, 0x98220000#32, 0xA8220000#32, 0xB8220000#32, 0x00000001#32, 0x00000005#32, 0x0000000F#32,
      0x0022002C#32, 0x0000003F#32, 0x04220004#32, 0x041F0000#32, 0x40806000#32, 0x42000010#32, 0x70000000#32,
      0xC0000000#32, 0xFFFFFFFF#32].all
      (fun w => decode Params.default w = .reserved) = true := by decide

/-- `95_test_vectors.md` 2.2, the words marked NZ. -/
theorem test_decode_constant_fields :
    [0x00221861#32, 0x03E00808#32, 0x0041F809#32, 0x00201810#32, 0x00221818#32, 0x00411846#32, 0x1C210004#32,
      0x18210004#32].all
      (fun w => decode Params.default w = .nonzeroConstantField) = true := by decide

/-- `95_test_vectors.md` 2.2, the words with ignored fields. -/
theorem test_decode_ignored_fields :
    decode Params.default 0x00221960#32 = .instr (.add 3#5 1#5 2#5) ∧
    decode Params.default 0x00411844#32 = .instr (.sllv 3#5 1#5 2#5) ∧
    decode Params.default 0x00E11100#32 = .instr (.sll 2#5 1#5 4#5) ∧
    decode Params.default 0x3C621234#32 = .instr (.lui 2#5 0x1234#16) ∧
    decode Params.default 0x0001000D#32 = .instr .brk ∧ decode Params.default 0x03FFFFCD#32 = .instr .brk ∧
    decode Params.default 0x0000004C#32 = .instr .syscall := by decide

/-- R65 under ZERO_FIELDS = ignore: ADDU with sh = 1. -/
theorem test_decode_zero_fields_ignored :
    decode { Params.default with zeroFields := .ignore } 0x00221861#32 = .instr (.addu 3#5 1#5 2#5) := by decide

/-- D33: a dropped entry is reserved, its neighbour is not. -/
theorem test_decode_dropped :
    decode { Params.default with dropped := [.ADD] } 0x00221820#32 = .reserved ∧
    decode { Params.default with dropped := [.ADD] } 0x00221821#32 = .instr (.addu 3#5 1#5 2#5) := by decide

/-- The host's question: bits above `nbits` are 0. -/
theorem test_decodeTableWord :
    decodeTableWord 32 0x00221820 = some (.add 3#5 1#5 2#5) ∧ decodeTableWord 8 0xFFFFFF0D = some .brk ∧
    decodeTableWord 32 0x88220000 = none := by decide

/-! ### Arithmetic, logic, comparison (`95_test_vectors.md` 2.3) -/
theorem test_add_same_register : regOf (runWord 0x00210820 (stateWith 0x3FFFFFFF#32 0#32)) 1#5 = some 0x7FFFFFFE#32 := by decide
theorem test_add_overflow : trapIn (runWord 0x00220020 (stateWith 0x7FFFFFFF#32 1#32)) = some (.overflow, 0x100#32, false, 0x100#32) := by decide
theorem test_addi : regOf (runWord 0x20227FFF (stateWith 0x7FFF8000#32 0#32)) 2#5 = some 0x7FFFFFFF#32 := by decide
theorem test_addi_overflow : trapIn (runWord 0x2022FFFF (stateWith 0x80000000#32 0#32)) = some (.overflow, 0x100#32, false, 0x100#32) := by decide
theorem test_addiu : regOf (runWord 0x24228000 (stateWith 0x8000#32 0#32)) 2#5 = some 0#32 := by decide
theorem test_addiu_zero_extended : regOf (runWord 0x24228000 (stateUnder { testParams with immExtU := .zero } 0x8000#32 0#32)) 2#5 = some 0x10000#32 := by decide
theorem test_addu : regOf (runWord 0x00221821 (stateWith 0xFFFFFFFF#32 1#32)) 3#5 = some 0#32 := by decide
theorem test_addu_register_zero : regOf (runWord 0x00220021 (stateWith 1#32 2#32)) 0#5 = some 0#32 := by decide
theorem test_and : regOf (runWord 0x00221824 (stateWith 0xFF00FF00#32 0x0FF00FF0#32)) 3#5 = some 0x0F000F00#32 := by decide
theorem test_andi : regOf (runWord 0x3022FF00 (stateWith 0xFFFFFFFF#32 0#32)) 2#5 = some 0x0000FF00#32 := by decide
theorem test_lui : regOf (runWord 0x3C021234 (stateWith 0#32 0#32)) 2#5 = some 0x12340000#32 := by decide
theorem test_nor : regOf (runWord 0x00221827 (stateWith 0xFF00FF00#32 0x0FF00FF0#32)) 3#5 = some 0x000F000F#32 := by decide
theorem test_or : regOf (runWord 0x00221825 (stateWith 0xFF00FF00#32 0x0FF00FF0#32)) 3#5 = some 0xFFF0FFF0#32 := by decide
theorem test_ori : regOf (runWord 0x34228000 (stateWith 0#32 0#32)) 2#5 = some 0x8000#32 := by decide
theorem test_slt_negative : regOf (runWord 0x0022182A (stateWith 0x80000000#32 0x7FFFFFFF#32)) 3#5 = some 1#32 := by decide
theorem test_slt_positive : regOf (runWord 0x0022182A (stateWith 1#32 0xFFFFFFFF#32)) 3#5 = some 0#32 := by decide
theorem test_slti : regOf (runWord 0x2822FFFF (stateWith 0xFFFFFFFE#32 0#32)) 2#5 = some 1#32 := by decide
theorem test_slti_equal : regOf (runWord 0x28227FFF (stateWith 0x7FFF#32 0#32)) 2#5 = some 0#32 := by decide
theorem test_sltiu : regOf (runWord 0x2C228000 (stateWith 0xFFFF7FFF#32 0#32)) 2#5 = some 1#32 := by decide
theorem test_sltiu_zero_extended : regOf (runWord 0x2C228000 (stateUnder { testParams with immExtU := .zero } 0xFFFF7FFF#32 0#32)) 2#5 = some 0#32 := by decide
theorem test_sltu : regOf (runWord 0x0022182B (stateWith 1#32 0xFFFFFFFF#32)) 3#5 = some 1#32 := by decide
theorem test_sltu_not : regOf (runWord 0x0022182B (stateWith 0xFFFFFFFF#32 1#32)) 3#5 = some 0#32 := by decide
theorem test_sub : regOf (runWord 0x00221822 (stateWith 0xFFFFFFFF#32 0x80000000#32)) 3#5 = some 0x7FFFFFFF#32 := by decide
theorem test_sub_overflow : trapIn (runWord 0x00221822 (stateWith 0#32 0x80000000#32)) = some (.overflow, 0x100#32, false, 0x100#32) := by decide
theorem test_subu : regOf (runWord 0x00221823 (stateWith 0x80000000#32 1#32)) 3#5 = some 0x7FFFFFFF#32 := by decide
theorem test_xor : regOf (runWord 0x00221826 (stateWith 0xFF00FF00#32 0x0FF00FF0#32)) 3#5 = some 0xF0F0F0F0#32 := by decide
theorem test_xori : regOf (runWord 0x3822FFFF (stateWith 0xFFFFFFFF#32 0#32)) 2#5 = some 0xFFFF0000#32 := by decide

/-! ### Shifts (2.4) -/
theorem test_sll : regOf (runWord 0x000117C0 (stateWith 3#32 0#32)) 2#5 = some 0x80000000#32 := by decide
theorem test_srl : regOf (runWord 0x00011102 (stateWith 0x80000000#32 0#32)) 2#5 = some 0x08000000#32 := by decide
theorem test_sra : regOf (runWord 0x00011103 (stateWith 0x80000000#32 0#32)) 2#5 = some 0xF8000000#32 := by decide
theorem test_sllv : regOf (runWord 0x00411804 (stateWith 1#32 0x21#32)) 3#5 = some 2#32 := by decide
theorem test_srlv : regOf (runWord 0x00411806 (stateWith 0x80000000#32 0x24#32)) 3#5 = some 0x08000000#32 := by decide
theorem test_srav : regOf (runWord 0x00411807 (stateWith 0x80000000#32 0x24#32)) 3#5 = some 0xF8000000#32 := by decide
theorem test_srav_by_32 : regOf (runWord 0x00411807 (stateWith 0x80000000#32 0x20#32)) 3#5 = some 0x80000000#32 := by decide

/-! ### Multiply, divide, HI and LO (2.5) -/
theorem test_mult : hiLoOf (runWord 0x00220018 (stateWith 0xFFFFFFFF#32 7#32)) = some (0xFFFFFFFF#32, 0xFFFFFFF9#32) := by decide
theorem test_mult_largest : hiLoOf (runWord 0x00220018 (stateWith 0x80000000#32 0x80000000#32)) = some (0x40000000#32, 0#32) := by decide
theorem test_multu : hiLoOf (runWord 0x00220019 (stateWith 0xFFFFFFFF#32 7#32)) = some (6#32, 0xFFFFFFF9#32) := by decide
theorem test_multu_largest : hiLoOf (runWord 0x00220019 (stateWith 0xFFFFFFFF#32 0xFFFFFFFF#32)) = some (0xFFFFFFFE#32, 1#32) := by decide
theorem test_div : hiLoOf (runWord 0x0022001A (stateWith 0xFFFFFFF9#32 2#32)) = some (0xFFFFFFFF#32, 0xFFFFFFFD#32) := by decide
theorem test_div_overflow : hiLoOf (runWord 0x0022001A (stateWith 0x80000000#32 0xFFFFFFFF#32)) = some (0#32, 0x80000000#32) := by decide
theorem test_divu : hiLoOf (runWord 0x0022001B (stateWith 0xFFFFFFFF#32 2#32)) = some (1#32, 0x7FFFFFFF#32) := by decide
/-- R144: by zero, LO then HI are draws; nothing says which values. -/
theorem test_divu_by_zero :
    hiLoOf (runWord 0x0022001B (stateWith 5#32 0#32)) = some (Config.anyWord 1, Config.anyWord 0) := by rfl
/-- The moves of 2.5, from HI = 0x11111111, LO = 0x22222222 and `$1` = 0xCAFEF00D. -/
def hiLoState : State := withHiLo 0x11111111#32 0x22222222#32 (stateWith 0xCAFEF00D#32 0#32)

theorem test_mfhi : regOf (runWord 0x00001810 hiLoState) 3#5 = some 0x11111111#32 := by decide
theorem test_mflo : regOf (runWord 0x00001812 hiLoState) 3#5 = some 0x22222222#32 := by decide
theorem test_mthi : hiLoOf (runWord 0x00200011 hiLoState) = some (0xCAFEF00D#32, 0x22222222#32) := by decide
theorem test_mtlo : hiLoOf (runWord 0x00200013 hiLoState) = some (0x11111111#32, 0xCAFEF00D#32) := by decide

/-! ### Branches and jumps (2.6) -/
theorem test_beq : countersOf (runWord 0x10220003 (stateWith 5#32 5#32)) = some (0x104#32, 0x110#32, true) := by decide
theorem test_beq_not : countersOf (runWord 0x10220003 (stateWith 5#32 6#32)) = some (0x104#32, 0x108#32, true) := by decide
theorem test_bne : countersOf (runWord 0x1422FFFE (stateWith 5#32 6#32)) = some (0x104#32, 0xFC#32, true) := by decide
theorem test_bne_not : countersOf (runWord 0x1422FFFE (stateWith 5#32 5#32)) = some (0x104#32, 0x108#32, true) := by decide
theorem test_bgez_zero : countersOf (runWord 0x04210004 (stateWith 0#32 0#32)) = some (0x104#32, 0x114#32, true) := by decide
theorem test_bgez_negative : countersOf (runWord 0x04210004 (stateWith 0x80000000#32 0#32)) = some (0x104#32, 0x108#32, true) := by decide
theorem test_bgtz_zero : countersOf (runWord 0x1C200004 (stateWith 0#32 0#32)) = some (0x104#32, 0x108#32, true) := by decide
theorem test_bgtz_one : countersOf (runWord 0x1C200004 (stateWith 1#32 0#32)) = some (0x104#32, 0x114#32, true) := by decide
theorem test_blez_zero : countersOf (runWord 0x18200004 (stateWith 0#32 0#32)) = some (0x104#32, 0x114#32, true) := by decide
theorem test_blez_negative : countersOf (runWord 0x18200004 (stateWith 0xFFFFFFFF#32 0#32)) = some (0x104#32, 0x114#32, true) := by decide
theorem test_bltz_negative : countersOf (runWord 0x0420FFFC (stateWith 0xFFFFFFFF#32 0#32)) = some (0x104#32, 0xF4#32, true) := by decide
theorem test_bltz_zero : countersOf (runWord 0x0420FFFC (stateWith 0#32 0#32)) = some (0x104#32, 0x108#32, true) := by decide
theorem test_bgezal_links : regOf (runWord 0x04310004 (stateWith 0#32 0#32)) 31#5 = some 0x108#32 := by decide
/-- R161: not taken, under the two values of LINK_NOT_TAKEN that are not a draw. -/
theorem test_bgezal_not_taken :
    regOf (runWord 0x04310004 (stateUnder { testParams with linkNotTaken := .always } 0xFFFFFFFF#32 0#32)) 31#5 =
      some 0x108#32 ∧
    regOf (runWord 0x04310004 (stateUnder { testParams with linkNotTaken := .onlyIfTaken } 0xFFFFFFFF#32 0#32)) 31#5 =
      some 0#32 := by decide
theorem test_bltzal_links : regOf (runWord 0x04300004 (stateWith 0xFFFFFFFF#32 0#32)) 31#5 = some 0x108#32 := by decide
theorem test_bltzal_taken : countersOf (runWord 0x04300004 (stateWith 0xFFFFFFFF#32 0#32)) = some (0x104#32, 0x114#32, true) := by decide
theorem test_j : countersOf (runWord 0x08000100 (stateWith 0#32 0#32)) = some (0x104#32, 0x400#32, true) := by decide
/-- The region is that of the delay slot, not of the jump itself. -/
theorem test_j_region :
    countersOf (runWord 0x08000100 (State.resetWith { Params.default with resetPc := 0x0FFFFFFC#32 })) =
      some (0x10000000#32, 0x10000400#32, true) := by decide
theorem test_jal : countersOf (runWord 0x0C000100 (stateWith 0#32 0#32)) = some (0x104#32, 0x400#32, true) := by decide
theorem test_jal_links : regOf (runWord 0x0C000100 (stateWith 0#32 0#32)) 31#5 = some 0x108#32 := by decide
theorem test_jr : countersOf (runWord 0x00400008 (stateWith 0#32 0x2002#32)) = some (0x104#32, 0x2002#32, true) := by decide
theorem test_jalr :
    countersOf (runWord 0x0040F809 (stateWith 0#32 0x3000#32)) = some (0x104#32, 0x3000#32, true) ∧
    regOf (runWord 0x0040F809 (stateWith 0#32 0x3000#32)) 31#5 = some 0x108#32 := by decide
theorem test_jalr_same_register :
    refusalIn (runWord 0x00401009 (stateWith 0#32 0x3000#32)) = some .jalrSameRegister := by decide

/-- A jump, then a branch in its delay slot. -/
theorem test_branch_in_delay_slot :
    refusalIn (runWord 0x10220003 { stateWith 0#32 0#32 with inDelay := true }) = some .controlTransferInDelaySlot := by
  decide

/-- The instruction in the delay slot runs, and the transfer follows it. -/
theorem test_delay_slot :
    countersOf (runWord 0 { stateWith 0#32 0#32 with npc := 0x2000#32, inDelay := true }) =
      some (0x2000#32, 0x2004#32, false) := by decide

/-! ### Loads and stores (2.7) -/
/-- The word 0x8899AABB at 0x1000, `$1` = 0x1000. -/
def loadState (e : Endian) : State :=
  (stateUnder { testParams with endian := e } 0x1000#32 0x55555555#32).write4 0x1000#32 0x8899AABB#32

/-- Bytes 0xEE from 0x1000, `$1` = 0x1000, `$2` = 0x11223344. -/
def storeState (e : Endian) : State :=
  (stateUnder { testParams with endian := e } 0x1000#32 0x11223344#32).write4 0x1000#32 0xEEEEEEEE#32
theorem test_lb_big : regOf (runWord 0x80220000 (loadState .big)) 2#5 = some 0xFFFFFF88#32 := by decide
theorem test_lb_little : regOf (runWord 0x80220001 (loadState .little)) 2#5 = some 0xFFFFFFAA#32 := by decide
theorem test_lbu_big : regOf (runWord 0x90220003 (loadState .big)) 2#5 = some 0xBB#32 := by decide
theorem test_lbu_little : regOf (runWord 0x90220003 (loadState .little)) 2#5 = some 0x88#32 := by decide
theorem test_lh_big : regOf (runWord 0x84220002 (loadState .big)) 2#5 = some 0xFFFFAABB#32 := by decide
theorem test_lh_little : regOf (runWord 0x84220002 (loadState .little)) 2#5 = some 0xFFFF8899#32 := by decide
theorem test_lhu_big : regOf (runWord 0x94220000 (loadState .big)) 2#5 = some 0x8899#32 := by decide
theorem test_lhu_little : regOf (runWord 0x94220000 (loadState .little)) 2#5 = some 0xAABB#32 := by decide
theorem test_lw_little : regOf (runWord 0x8C220000 (loadState .little)) 2#5 = some 0x8899AABB#32 := by decide
theorem test_lw_load_reg : loadRegOf (runWord 0x8C220000 (loadState .big)) = some 2#5 := by decide
theorem test_sb : bytesOf (runWord 0xA0220003 (storeState .big)) 0x1000#32 = some [0xEE#8, 0xEE#8, 0xEE#8, 0x44#8] := by
  decide
theorem test_sh_big : bytesOf (runWord 0xA4220002 (storeState .big)) 0x1000#32 = some [0xEE#8, 0xEE#8, 0x33#8, 0x44#8] := by
  decide
theorem test_sh_little : bytesOf (runWord 0xA4220000 (storeState .little)) 0x1000#32 = some [0x44#8, 0x33#8, 0xEE#8, 0xEE#8] := by
  decide
theorem test_sw_big : bytesOf (runWord 0xAC220000 (storeState .big)) 0x1000#32 = some [0x11#8, 0x22#8, 0x33#8, 0x44#8] := by
  decide
theorem test_sw_little : bytesOf (runWord 0xAC220000 (storeState .little)) 0x1000#32 = some [0x44#8, 0x33#8, 0x22#8, 0x11#8] := by
  decide

/-- MEM_MAP = 0x0 .. 0x1FFF and TEXT = 0x0 .. 0xFFF, as in "Order of checks" of 2.7. -/
def mapParams : Params := { testParams with memMap := [⟨0, 0x2000⟩], text := [⟨0, 0x1000⟩] }

/-- Misaligned comes before unmapped, unmapped before text. -/
theorem test_order_of_load_checks :
    trapIn (runWord 0x8C220002 (stateUnder mapParams 0x2000#32 0#32)) =
      some (.addressErrorLoad, 0x100#32, false, 0x2002#32) ∧
    refusalIn (runWord 0x8C220000 (stateUnder mapParams 0x2000#32 0#32)) = some .unmapped ∧
    loadRegOf (runWord 0x84220000 (stateUnder mapParams 0x1FFE#32 0#32)) = some 2#5 := by decide

theorem test_order_of_store_checks :
    trapIn (runWord 0xAC220002 (stateUnder mapParams 0x100#32 0#32)) =
      some (.addressErrorStore, 0x100#32, false, 0x102#32) ∧
    refusalIn (runWord 0xAC220000 (stateUnder mapParams 0x100#32 0#32)) = some .storeToText ∧
    refusalIn (runWord 0xAC220000 (stateUnder mapParams 0x2000#32 0#32)) = some .unmapped := by decide

/-! ### Exceptions and the step (2.8, 2.7 "Load delay") -/

theorem test_break :
    trapIn (runWord 0x0000000D (stateWith 0#32 0#32)) = some (.breakpoint, 0x100#32, false, 0x100#32) := by decide
theorem test_syscall :
    trapIn (runWord 0x0000000C (stateWith 0#32 0#32)) = some (.systemCall, 0x100#32, false, 0x100#32) := by decide

/-- R210: with TRAP_VECTOR = 0x80 the machine goes on at the vector. -/
theorem test_break_vector :
    countersOf (runWord 0x0000000D (stateUnder { testParams with trapVector := some 0x80#32 } 0#32 0#32)) =
      some (0x80#32, 0x84#32, false) := by decide
theorem test_syscall_vector :
    countersOf (runWord 0x0000000C (stateUnder { testParams with trapVector := some 0x80#32 } 0#32 0#32)) =
      some (0x80#32, 0x84#32, false) := by decide

/-- The word of LWL. -/
theorem test_reserved_word :
    trapIn (runWord 0x88220000 (stateWith 0#32 0#32)) = some (.reservedInstruction, 0x100#32, false, 0x88220000#32) := by
  decide

/-- Step 3 of the second `jr` vector of 2.6. -/
theorem test_misaligned_fetch :
    trapIn (step { stateWith 0#32 0#32 with pc := 0x2002#32 }) =
      some (.addressErrorFetch, 0x2002#32, false, 0x2002#32) := by decide

/-- `addu $3, $2, $0` after `lw $2, ...`, under both values of LOAD_DELAY. -/
theorem test_load_use :
    refusalIn (runWord 0x00401821 { stateWith 0#32 7#32 with loadReg := 2#5 }) = some .loadUse ∧
    regOf (runWord 0x00401821 { stateUnder { testParams with loadDelay := .interlocked } 0#32 7#32 with loadReg := 2#5 })
      3#5 = some 7#32 := by decide

/-! ### Witnesses: the hypotheses of the obligations are met

Obligations without hypotheses of their own have none here; the hypothesis inside `IsWordOf` is met by every entry under
the parameters of `State.reset` (`test_witness_supported`). -/

/-- The parameters with a trap vector, and with two small regions: memory 0x1000 .. 0x100F, its second half TEXT. -/
def vectorParams : Params := { testParams with trapVector := some 0x80#32 }
/-- Memory at 0x1000 .. 0x100F, text at 0x1008 .. 0x100F. -/
def smallParams : Params := { testParams with memMap := [⟨0x1000, 16⟩], text := [⟨0x1008, 8⟩] }
/-- A state with `$1` = `v` under the small regions. -/
def smallState (v : Word) : State := stateUnder smallParams v 0#32

theorem test_witness_supported : (Instr.add 3#5 1#5 2#5).mnemonic ∉ Params.default.dropped := by decide

theorem test_witness_DecodeOfEncode : (Instr.sw 31#5 0x8000#16 31#5).mnemonic ∉ Params.default.dropped := by decide

theorem test_witness_DecodingFollowsOpcodeRows :
    Params.default.zeroFields = .refuse ∧ Params.default.dropped = [] ∧
    decode Params.default 0x0022001A#32 = .instr (.div 1#5 2#5) ∧
    (⟨.DIV, 0x0000001A#32, 0xFC00FFFF#32⟩ : OpcodeRow) ∈ opcodeRows ∧
    OpcodeRow.fits ⟨.DIV, 0x0000001A#32, 0xFC00FFFF#32⟩ 0x0022001A#32 = true := by decide

theorem test_witness_NoWordFitsTwoRows :
    (⟨.SLL, 0x00000000#32, 0xFC00003F#32⟩ : OpcodeRow) ∈ opcodeRows ∧
    OpcodeRow.fits ⟨.SLL, 0x00000000#32, 0xFC00003F#32⟩ 0x03FFFFC0#32 = true := by decide

theorem test_witness_ReservedWordsAreThoseOfTheMaps :
    Params.default.dropped = [] ∧ opOf 0x40000000#32 = 0x10#6 ∧ fnOf 0x00000001#32 = 0x01#6 ∧
    rtOf 0x041F0000#32 = 31#5 := by decide

/-- The lowest and all bits of the constant-zero field of ADDU, under both values of ZERO_FIELDS. -/
theorem test_witness_NonzeroConstantFields :
    (Instr.addu 3#5 1#5 2#5).mnemonic ∉ Params.default.dropped ∧ 0x00000040#32 ≠ 0#32 ∧
    0x00000040#32 &&& ~~~constantZeroBits (.addu 3#5 1#5 2#5) = 0#32 ∧
    0x000007C0#32 &&& ~~~constantZeroBits (.addu 3#5 1#5 2#5) = 0#32 ∧
    Params.default.zeroFields = .refuse ∧ ({ Params.default with zeroFields := .ignore }).zeroFields = .ignore := by
  decide

theorem test_witness_UnsupportedEntriesAreReserved :
    decode { ({ Params.default with dropped := [.ADD] } : Params) with dropped := [] } 0x00221820#32 =
      .instr (.add 3#5 1#5 2#5) := by decide

/-- 0x7FFFFFFF + 0 fits, + 1 does not; -2^31 - 0 fits, - 1 does not; with and without a trap vector. -/
theorem test_witness_AddAndSubRaiseOnOverflow :
    (stateWith 0x7FFFFFFF#32 0#32).readReg 1#5 = 0x7FFFFFFF#32 ∧
    ¬ ((0x7FFFFFFF#32).msb = (0#32).msb ∧ (0x7FFFFFFF#32 + 0#32).msb ≠ (0x7FFFFFFF#32).msb) ∧
    ((0x7FFFFFFF#32).msb = (1#32).msb ∧ (0x7FFFFFFF#32 + 1#32).msb ≠ (0x7FFFFFFF#32).msb) ∧
    ¬ ((0x80000000#32).msb ≠ (0#32).msb ∧ (0x80000000#32 - 0#32).msb ≠ (0x80000000#32).msb) ∧
    ((0x80000000#32).msb ≠ (1#32).msb ∧ (0x80000000#32 - 1#32).msb ≠ (0x80000000#32).msb) ∧
    (stateWith 0#32 0#32).params.trapVector = none ∧
    (stateUnder vectorParams 0#32 0#32).params.trapVector = some 0x80#32 := by decide

theorem test_witness_AddiRaisesOnOverflow :
    ¬ ((0x7FFF8000#32).msb = ((0x7FFF#16).signExtend 32).msb ∧
      (0x7FFF8000#32 + (0x7FFF#16).signExtend 32).msb ≠ (0x7FFF8000#32).msb) ∧
    ((0x7FFF8001#32).msb = ((0x7FFF#16).signExtend 32).msb ∧
      (0x7FFF8001#32 + (0x7FFF#16).signExtend 32).msb ≠ (0x7FFF8001#32).msb) := by decide

theorem test_witness_TrappingAndWrappingSumsAgree :
    (stateWith 5#32 1#32).params.trapVector = none ∧ (stateWith 5#32 1#32).params.immExtU = .sign ∧
    (∃ t, exec (.add 3#5 1#5 2#5) (stateWith 5#32 1#32) = .next t) ∧
    (∃ t, exec (.sub 3#5 1#5 2#5) (stateWith 5#32 1#32) = .next t) ∧
    (∃ t, exec (.addi 3#5 1#5 1#16) (stateWith 5#32 1#32) = .next t) ∧
    (stateWith 5#32 1#32).readReg 2#5 = (1#16).signExtend 32 :=
  ⟨rfl, rfl, ⟨_, rfl⟩, ⟨_, rfl⟩, ⟨_, rfl⟩, by decide⟩

theorem test_witness_AddiuAndSltiu :
    0xFFFF8000#32 = (if (stateWith 0#32 0#32).params.immExtU = .sign then (0x8000#16).signExtend 32
      else (0x8000#16).zeroExtend 32) ∧
    0x00008000#32 = (if (stateUnder { testParams with immExtU := .zero } 0#32 0#32).params.immExtU = .sign
      then (0x8000#16).signExtend 32 else (0x8000#16).zeroExtend 32) := by decide

theorem test_witness_BitwiseImmediateForms :
    (stateWith 0x12348000#32 0#32).readReg 1#5 = 0x1234#16 ++ 0x8000#16 := by decide

/-- A count of 32 is 0, one of 0xFFFFFFFF is 31. -/
theorem test_witness_ShiftsByRegister :
    0 = ((stateWith 0#32 32#32).readReg 2#5).toNat % 32 ∧
    31 = ((stateWith 0#32 0xFFFFFFFF#32).readReg 2#5).toNat % 32 := by decide

theorem test_witness_DivuQuotientAndRemainder :
    (stateWith 5#32 1#32).readReg 2#5 ≠ 0#32 ∧ (stateWith 5#32 0#32).readReg 2#5 = 0#32 := by decide

/-- Divisor 0; -2^31 by -1 under both values of DIV_OVF; -2^31 by 1 and 2^31 - 1 by -1. -/
theorem test_witness_DivQuotientAndRemainder :
    (stateWith 0x80000000#32 0#32).readReg 2#5 = 0#32 ∧
    ((stateWith 0x80000000#32 0xFFFFFFFF#32).readReg 1#5).toInt = -2147483648 ∧
    ((stateWith 0x80000000#32 0xFFFFFFFF#32).readReg 2#5).toInt = -1 ∧
    (stateWith 0#32 0#32).params.divOvf = .wrap ∧
    (stateUnder { testParams with divOvf := .any } 0#32 0#32).params.divOvf = .any ∧
    ¬ ((0x80000000#32).toInt = -2147483648 ∧ (1#32).toInt = -1) ∧
    ¬ ((0x7FFFFFFF#32).toInt = -2147483648 ∧ (0xFFFFFFFF#32).toInt = -1) := by decide

theorem test_witness_DivisionLaw :
    (stateWith 0x80000000#32 1#32).readReg 2#5 ≠ 0#32 ∧
    ¬ (((stateWith 0x80000000#32 1#32).readReg 1#5).toInt = -2147483648 ∧
      ((stateWith 0x80000000#32 1#32).readReg 2#5).toInt = -1) := by decide

theorem test_witness_EqualityBranches :
    (stateWith 5#32 5#32).inDelay = false ∧ (stateWith 5#32 5#32).readReg 1#5 = (stateWith 5#32 5#32).readReg 2#5 ∧
    (stateWith 5#32 6#32).readReg 1#5 ≠ (stateWith 5#32 6#32).readReg 2#5 := by decide

/-- The values where the four conditions change: 0, 1, -1 and -2^31. -/
theorem test_witness_SignBranches :
    (stateWith 0#32 0#32).inDelay = false ∧ (0#32).msb = false ∧ (0xFFFFFFFF#32).msb = true ∧
    (0x80000000#32).msb = true ∧ ((1#32).msb = false ∧ 1#32 ≠ 0#32) ∧ ((0#32).msb = true ∨ 0#32 = 0#32) := by decide

/-- Taken, and not taken under each value of LINK_NOT_TAKEN; the same states serve BLTZAL with `$1` and `$2` swapped. -/
theorem test_witness_BgezalLinks :
    (stateWith 0#32 0xFFFFFFFF#32).inDelay = false ∧ ((stateWith 0#32 0xFFFFFFFF#32).readReg 1#5).msb = false ∧
    ((stateWith 0#32 0xFFFFFFFF#32).readReg 2#5).msb = true ∧
    (stateWith 0#32 0xFFFFFFFF#32).params.linkNotTaken = .draw ∧
    (stateUnder { testParams with linkNotTaken := .always } 0#32 0#32).params.linkNotTaken = .always ∧
    (stateUnder { testParams with linkNotTaken := .onlyIfTaken } 0#32 0#32).params.linkNotTaken = .onlyIfTaken := by
  decide

theorem test_witness_BltzalLinks :
    (stateWith 0xFFFFFFFF#32 0#32).inDelay = false ∧ ((stateWith 0xFFFFFFFF#32 0#32).readReg 1#5).msb = true ∧
    ((stateWith 0xFFFFFFFF#32 0#32).readReg 2#5).msb = false ∧
    (stateWith 0xFFFFFFFF#32 0#32).params.linkNotTaken = .draw := by decide

theorem test_witness_JumpsWithinTheRegion : (stateWith 0#32 0#32).inDelay = false := by decide

theorem test_witness_JumpsThroughARegister :
    (stateWith 0#32 0#32).inDelay = false ∧ (31#5 ≠ 2#5 ∨ 31#5 = 0#5) ∧ (0#5 ≠ 0#5 ∨ 0#5 = 0#5) ∧
    (1#5 = 1#5 ∧ 1#5 ≠ 0#5) := by decide

theorem test_witness_ControlTransferRefusedInDelaySlot :
    (Instr.j 0#26).mnemonic.isControlTransfer = true ∧ ({ stateWith 0#32 0#32 with inDelay := true }).inDelay = true := by
  decide

/-- A load, whose next state knows the register; a transfer; a trap to the vector. -/
theorem test_witness_TheNextInstructionIsAtNpc :
    (∃ t, exec (.lw 2#5 0#16 1#5) (stateWith 0x1000#32 0#32) = .next t ∧ t.loadReg ≠ 0#5) ∧
    (∃ t, exec (.j 0#26) (stateWith 0#32 0#32) = .next t ∧ t.inDelay = true) ∧
    (∃ t, exec .brk (stateUnder vectorParams 0#32 0#32) = .next t ∧ t.pc = 0x80#32) :=
  ⟨⟨_, rfl, by decide⟩, ⟨_, rfl, by decide⟩, ⟨_, rfl, by decide⟩⟩

/-- The last mapped byte, and the first unmapped one. -/
theorem test_witness_ByteLoads :
    0x100F#32 = addressOf (smallState 0x100F#32) 1#5 0#16 ∧ 0x1010#32 = addressOf (smallState 0x100F#32) 1#5 1#16 ∧
    Region.anyHolds (smallState 0x100F#32).params.memMap (0x100F#32).toNat = true ∧
    Region.anyHolds (smallState 0x100F#32).params.memMap (0x1010#32).toNat = false := by decide

/-- The last half word and word of memory, under a byte order. -/
def loadWitness (e : Endian) : State := stateUnder { smallParams with endian := e } 0x100C#32 0#32

theorem test_witness_HalfAndWordLoads :
    ∀ e ∈ [Endian.big, Endian.little], (loadWitness e).params.endian = e ∧
      0x100E#32 = addressOf (loadWitness e) 1#5 2#16 ∧ (0x100E#32).toNat % 2 = 0 ∧
      AllMapped (loadWitness e) 0x100E#32 2 ∧ 0x100C#32 = addressOf (loadWitness e) 1#5 0#16 ∧
      (0x100C#32).toNat % 4 = 0 ∧ AllMapped (loadWitness e) 0x100C#32 4 := by
  unfold AllMapped; decide

/-- The last word below TEXT, under a byte order. -/
def storeWitness (e : Endian) : State := stateUnder { smallParams with endian := e } 0x1004#32 0x11223344#32

/-- The last byte, half word and word below TEXT. -/
theorem test_witness_StoresWriteTheirBytes :
    ∀ e ∈ [Endian.big, Endian.little], (storeWitness e).params.endian = e ∧
      (storeWitness e).readReg 2#5 = 0x11#8 ++ 0x22#8 ++ 0x33#8 ++ 0x44#8 ∧
      0x1007#32 = addressOf (storeWitness e) 1#5 3#16 ∧
      AllMapped (storeWitness e) 0x1007#32 1 ∧ NoneInText (storeWitness e) 0x1007#32 1 ∧
      0x1006#32 = addressOf (storeWitness e) 1#5 2#16 ∧ (0x1006#32).toNat % 2 = 0 ∧
      AllMapped (storeWitness e) 0x1006#32 2 ∧ NoneInText (storeWitness e) 0x1006#32 2 ∧
      0x1004#32 = addressOf (storeWitness e) 1#5 0#16 ∧ (0x1004#32).toNat % 4 = 0 ∧
      AllMapped (storeWitness e) 0x1004#32 4 ∧ NoneInText (storeWitness e) 0x1004#32 4 := by
  unfold AllMapped NoneInText; decide

/-- Misaligned addresses, the first and last mapped ones, the last of them for a word only, and an unmapped one. -/
theorem test_witness_MisalignedAccessRaises :
    0x1001#32 = addressOf (smallState 0x1000#32) 1#5 1#16 ∧ (0x1001#32).toNat % 2 ≠ 0 ∧
    0x100F#32 = addressOf (smallState 0x1000#32) 1#5 15#16 ∧ (0x100F#32).toNat % 2 ≠ 0 ∧
    0x100E#32 = addressOf (smallState 0x1000#32) 1#5 14#16 ∧ (0x100E#32).toNat % 4 ≠ 0 ∧
    0x0FFF#32 = addressOf (smallState 0x1000#32) 1#5 0xFFFF#16 ∧ (0x0FFF#32).toNat % 4 ≠ 0 := by decide

/-- The first unmapped half word, word and byte; the first byte, half word and word of TEXT. -/
theorem test_witness_UnmappedAndTextAccessRefused :
    0x1010#32 = addressOf (smallState 0x1008#32) 1#5 8#16 ∧ (0x1010#32).toNat % 2 = 0 ∧
    ¬ AllMapped (smallState 0x1008#32) 0x1010#32 2 ∧ (0x1010#32).toNat % 4 = 0 ∧
    ¬ AllMapped (smallState 0x1008#32) 0x1010#32 4 ∧ ¬ AllMapped (smallState 0x1008#32) 0x1010#32 1 ∧
    0x1008#32 = addressOf (smallState 0x1008#32) 1#5 0#16 ∧ (0x1008#32).toNat % 2 = 0 ∧ (0x1008#32).toNat % 4 = 0 ∧
    AllMapped (smallState 0x1008#32) 0x1008#32 1 ∧ ¬ NoneInText (smallState 0x1008#32) 0x1008#32 1 ∧
    AllMapped (smallState 0x1008#32) 0x1008#32 2 ∧ ¬ NoneInText (smallState 0x1008#32) 0x1008#32 2 ∧
    AllMapped (smallState 0x1008#32) 0x1008#32 4 ∧ ¬ NoneInText (smallState 0x1008#32) 0x1008#32 4 := by
  unfold AllMapped NoneInText; decide

theorem test_witness_BreakAndSyscallEndTheRun : (stateWith 0#32 0#32).params.trapVector = none := by decide

theorem test_witness_BreakAndSyscallGoToTheVector :
    (stateUnder vectorParams 0#32 0#32).params.trapVector = some 0x80#32 := by decide

theorem test_witness_OnlyTheListedInstructionsTrap :
    (∃ f, exec .brk (stateWith 0#32 0#32) = .fault f) ∧
    (∃ f, exec (.add 3#5 1#5 2#5) (stateWith 0x7FFFFFFF#32 1#32) = .fault f) ∧
    (∃ f, exec (.lw 2#5 0#16 1#5) (stateWith 1#32 0#32) = .fault f) := ⟨⟨_, rfl⟩, ⟨_, rfl⟩, ⟨_, rfl⟩⟩

theorem test_witness_OnlyTheListedRefusals :
    exec (.lw 2#5 0#16 1#5) (smallState 0#32) = .refused .unmapped ∧
    exec (.sw 2#5 0#16 1#5) (smallState 0x1008#32) = .refused .storeToText ∧
    exec (.jalr 1#5 1#5) (stateWith 0#32 0#32) = .refused .jalrSameRegister ∧
    exec (.j 0#26) { stateWith 0#32 0#32 with inDelay := true } = .refused .controlTransferInDelaySlot :=
  ⟨rfl, rfl, rfl, rfl⟩

/-- The word of `addu $3, $1, $2` at `pc`, under a value of LOAD_DELAY and after a load to a register. -/
def fetchWitness (d : LoadDelay) (r : Reg) (w : Nat) : State :=
  State.withFetchWord { stateUnder { testParams with loadDelay := d } 1#32 2#32 with loadReg := r } 32 w

/-- Each of the three ways to be free of a load use: interlocked, no load before, a load to another register. -/
theorem test_witness_StepRunsTheDecodedInstruction :
    ∀ s ∈ [fetchWitness .interlocked 1#5 0x00221821, fetchWitness .refuse 0#5 0x00221821,
        fetchWitness .refuse 4#5 0x00221821],
      s.pc.toNat % 4 = 0 ∧ AllMapped s s.pc 4 ∧ decode s.params (s.read4 s.pc) = .instr (.addu 3#5 1#5 2#5) ∧
      (s.params.loadDelay = .interlocked ∨ s.loadReg = 0#5 ∨ s.loadReg ∉ namedRegs (.addu 3#5 1#5 2#5)) := by
  unfold AllMapped; decide

theorem test_witness_StepsThatRunNoInstruction :
    ({ stateWith 0#32 0#32 with pc := 0x2002#32 }).pc.toNat % 4 ≠ 0 ∧
    ((smallState 0#32).pc.toNat % 4 = 0 ∧ ¬ AllMapped (smallState 0#32) (smallState 0#32).pc 4) ∧
    (∀ c ∈ [(0x88220000, Decoded.reserved), (0x00221861, .nonzeroConstantField),
        (0x00221821, .instr (.addu 3#5 1#5 2#5))],
      (fetchWitness .refuse 3#5 c.1).pc.toNat % 4 = 0 ∧
      AllMapped (fetchWitness .refuse 3#5 c.1) (fetchWitness .refuse 3#5 c.1).pc 4 ∧
      decode (fetchWitness .refuse 3#5 c.1).params
        ((fetchWitness .refuse 3#5 c.1).read4 (fetchWitness .refuse 3#5 c.1).pc) = c.2) ∧
    (fetchWitness .refuse 3#5 0x00221821).params.loadDelay = .refuse ∧
    (fetchWitness .refuse 3#5 0x00221821).loadReg ≠ 0#5 ∧
    (fetchWitness .refuse 3#5 0x00221821).loadReg ∈ namedRegs (.addu 3#5 1#5 2#5) := by
  unfold AllMapped; decide

theorem test_witness_AStoredWordIsFetched : AllMapped (stateWith 0#32 0#32) (stateWith 0#32 0#32).pc 4 := by
  unfold AllMapped; decide

theorem test_witness_UnnamedRegistersPlayNoPart :
    4#5 ∉ namedRegs (.add 3#5 1#5 2#5) ∧ 0#5 ∉ namedRegs (.add 3#5 1#5 2#5) ∧ 30#5 ∉ namedRegs (.jal 0#26) := by decide

theorem test_witness_OnlyLoadsAndStoresReachMemory :
    (Instr.add 3#5 1#5 2#5).mnemonic.isLoad = false ∧ (Instr.add 3#5 1#5 2#5).mnemonic.isStore = false := by decide

theorem test_witness_OnlyEightInstructionsTouchHiLo :
    (Instr.add 3#5 1#5 2#5).mnemonic ∉
      ([.DIV, .DIVU, .MULT, .MULTU, .MTHI, .MTLO, .MFHI, .MFLO] : List Mnemonic) := by decide

theorem test_witness_OnlyTheseInstructionsDraw :
    (∃ t, exec (.sw 2#5 0#16 1#5) (stateWith 0x1000#32 0#32) = .next t) ∧
    (Instr.sw 2#5 0#16 1#5).mnemonic ∉ ([.DIV, .DIVU, .MULT, .MULTU, .BGEZAL, .BLTZAL] : List Mnemonic) :=
  ⟨⟨_, rfl⟩, by decide⟩

/-- The parameters of reset are as R4 asks. -/
theorem test_witness_ResetMeetsTheInvariant : Params.default.Wf :=
  ⟨by decide, by simp [Params.default], by simp [Params.default, Region.anyHolds]⟩

/-- The reset state with `j 0x100` in place. -/
def runningState : State := State.reset.withFetchWord 32 0x08000100

theorem runningState_inv : Inv runningState where
  memory := by decide
  mapped := by decide
  params := test_witness_ResetMeetsTheInvariant
  straight := by decide
  slotAligned := by decide
  loadNotInSlot := by decide

theorem test_witness_StepKeepsTheInvariant : Inv runningState ∧ ∃ t, step runningState = .next t :=
  ⟨runningState_inv, _, rfl⟩

/-- A run that ends at once, and one that still runs after a step. -/
theorem test_witness_RunsKeepTheInvariant :
    Inv runningState ∧ (∃ t, runUntil (fun _ => true) 1 runningState = .ended t) ∧
    ∃ t, runUntil (fun _ => false) 1 runningState = .running t := ⟨runningState_inv, ⟨_, rfl⟩, _, rfl⟩

/-- A step of a state whose program lies in TEXT. -/
def textState : State := ((State.resetWith { Params.default with text := [⟨0, 8⟩], memMap := [⟨0, 16⟩] }).withFetchWord 32 0)

theorem test_witness_ProgramTextIsImmutable :
    (∃ t, step textState = .next t) ∧ Region.anyHolds textState.params.text (7#32).toNat = true ∧
    Region.anyHolds textState.params.memMap (16#32).toNat = false := ⟨⟨_, rfl⟩, by decide, by decide⟩

theorem test_witness_ParametersNeverChange : ∃ t, step textState = .next t := ⟨_, rfl⟩

theorem test_witness_FunctionMapOfOpZero :
    opOf 0x00221821#32 = 0#6 ∧ decode Params.default 0x00221821#32 = .instr (.addu 3#5 1#5 2#5) ∧
      opOf 0x00000001#32 = 0#6 ∧ fnOf 0x00000001#32 ∉ functionMap.map Prod.fst ∧
      (0b101011#6, Mnemonic.SLTU) ∈ functionMap := by decide

theorem test_witness_BranchGroupMap :
    0b00010#5 ∉ [0b00000#5, 0b00001#5, 0b10000#5, 0b10001#5] ∧
      0b11111#5 ∉ [0b00000#5, 0b00001#5, 0b10000#5, 0b10001#5] := by decide

end Sys2Proof.Tests
end

section
/-! # The three statements of `00_scope.md`

First what `decode` answers for a word that selects a row; then one inversion lemma, `exec_next`, that says once every way an
instruction can reach a next state, and `step_next` for a whole step. The obligations are short uses of these. -/

namespace Sys2Proof.Proofs

open Sys2Proof.Machine

/-! ### Decoding under SUPPORTED and ZERO_FIELDS -/

/-- A word that selects a dropped entry is reserved, whatever its constant-zero fields hold (D33). -/
theorem decode_of_dropped {p : Params} {w : Word} {i : Instr} (hrow : selectRow w = some i)
    (hdrop : i.mnemonic ∈ p.dropped) : decode p w = .reserved := by
  simp [decode, hrow, hdrop]

/-- A word is an instruction exactly when it selects that row, the row is supported, and the constant-zero fields pass the
check that ZERO_FIELDS asks for (R64, R65). -/
theorem decode_eq_instr_iff (p : Params) (w : Word) (i : Instr) :
    decode p w = .instr i ↔ selectRow w = some i ∧ i.mnemonic ∉ p.dropped ∧
      (p.zeroFields = .refuse → w &&& constantZeroBits i = 0#32) := by
  cases hrow : selectRow w with
  | none => simp [decode, hrow]
  | some j =>
    by_cases hdrop : j.mnemonic ∈ p.dropped
    · simp only [decode_of_dropped hrow hdrop, reduceCtorEq, Option.some.injEq, false_iff]
      rintro ⟨rfl, hkept, -⟩
      exact hkept hdrop
    · cases hz : p.zeroFields with
      | ignore =>
        have hdec : decode p w = .instr j := by simp [decode, hrow, hdrop, hz]
        simp only [hdec, Decoded.instr.injEq, Option.some.injEq, reduceCtorEq, false_implies, and_true]
        exact ⟨fun e => ⟨e, e ▸ hdrop⟩, And.left⟩
      | refuse =>
        have hdec : decode p w = if w &&& constantZeroBits j = 0#32 then .instr j else .nonzeroConstantField := by
          simp [decode, hrow, hdrop, hz]
        by_cases hzero : w &&& constantZeroBits j = 0#32
        · simp only [hdec, hzero, if_true, Decoded.instr.injEq, Option.some.injEq, forall_const]
          exact ⟨fun e => ⟨e, e ▸ hdrop, e ▸ hzero⟩, And.left⟩
        · simp only [hdec, hzero, if_false, reduceCtorEq, Option.some.injEq, forall_const, false_iff]
          rintro ⟨rfl, -, hfields⟩
          exact hzero hfields

/-- Settles O6: with all entries supported the word has passed every check but that of SUPPORTED, so what is left is whether
its own entry is dropped. -/
theorem unsupportedEntriesAreReserved : Obligations.UnsupportedEntriesAreReserved := by
  intro p w i h
  obtain ⟨hrow, -, hfields⟩ := (decode_eq_instr_iff _ w i).1 h
  split
  · next hdrop => exact decode_of_dropped hrow hdrop
  · next hkept => exact (decode_eq_instr_iff p w i).2 ⟨hrow, hkept, hfields⟩

/-! ### The next states of an instruction -/

/-- The instructions that may draw: divisions, multiplications and linking branches (`42_muldiv.md` R141, R143, R144,
`43_branch_jump.md` R161, R165). -/
def drawingMnemonics : List Mnemonic := [.DIV, .DIVU, .MULT, .MULTU, .BGEZAL, .BLTZAL]

/-- Every way in which the instruction `i` can reach a next state from `s`, with the guards that held on the way. That `exec`
reaches no other is `exec_next`. -/
inductive NextOf (i : Instr) (s : State) : State → Prop
  /-- An exception, with a trap vector. -/
  | trap {v : Word} (e : Exception) (info : Word) (vector : s.params.trapVector = some v) :
      NextOf i s (trapState s v e info)
  /-- One general register written. -/
  | register (r : Reg) (v : Word) : NextOf i s (s.writeReg r v).advance
  /-- HI and LO written, after `n` draws. -/
  | hiLo (hi lo : Word) (n : Nat) (undrawn : i.mnemonic ∉ drawingMnemonics → n = 0) :
      NextOf i s (State.advance { s with hi := hi, lo := lo, draws := s.draws + n })
  /-- One general register loaded. -/
  | load (r : Reg) (v : Word) : NextOf i s ((s.writeReg r v).advanceLoad r)
  /-- Bytes stored, inside MEM_MAP and outside TEXT. -/
  | store (ea : Word) (bs : List Byte) (mapped : s.mapped ea bs.length = true)
      (notText : s.touchesText ea bs.length = false) : NextOf i s (s.writeBytes ea bs).advance
  /-- A control transfer that does not link. -/
  | transfer (target : Word) (outside : s.inDelay = false) : NextOf i s (s.transferTo target)
  /-- A control transfer that links. -/
  | transferAndLink (r : Reg) (v target : Word) (outside : s.inDelay = false) :
      NextOf i s ((s.writeReg r v).transferTo target)
  /-- A branch not taken that does not link. -/
  | notTaken (outside : s.inDelay = false) : NextOf i s s.notTaken
  /-- A linking branch not taken. -/
  | linkNotTaken (outside : s.inDelay = false) (draws : i.mnemonic ∈ drawingMnemonics) :
      NextOf i s (linkNotTaken s).notTaken

section SharedForms

variable {i : Instr} {s t : State}

theorem nextOf_raise {e : Exception} {info : Word} (h : raise e info s = .next t) : NextOf i s t := by
  obtain ⟨v, hv, rfl⟩ := raise_next h
  exact .trap e info hv

theorem nextOf_writeAndAdvance {r : Reg} {v : Word} (h : writeAndAdvance s r v = .next t) : NextOf i s t := by
  cases h
  exact .register r v

theorem nextOf_writeUnlessOverflow {o : Bool} {r : Reg} {v : Word} (h : writeUnlessOverflow s o r v = .next t) :
    NextOf i s t := by
  rcases writeUnlessOverflow_cases s o r v with ⟨-, e⟩ | ⟨-, e⟩
  · exact nextOf_raise (e ▸ h)
  · exact nextOf_writeAndAdvance (e ▸ h)

theorem nextOf_writeHiLo {hi lo : Word} (h : writeHiLo s hi lo = .next t) : NextOf i s t := by
  cases h
  exact .hiLo hi lo 0 fun _ => rfl

theorem nextOf_drawHiLo (hi : i.mnemonic ∈ drawingMnemonics) (h : drawHiLo s = .next t) : NextOf i s t := by
  cases h
  exact .hiLo _ _ 2 fun hn => absurd hi hn

theorem nextOf_writeProduct {p : BitVec 64} (hi : i.mnemonic ∈ drawingMnemonics) (h : writeProduct s p = .next t) :
    NextOf i s t := by
  rcases writeProduct_cases s p with ⟨-, e⟩ | ⟨-, e⟩
  · exact nextOf_writeHiLo (e ▸ h)
  · cases e ▸ h
    exact .hiLo _ _ 1 fun hn => absurd hi hn

theorem nextOf_checkedLoad {n : Nat} {ea : Word} {r : Reg} {v : Word}
    (h : checkedLoad s n ea (finishLoad s r v) = .next t) : NextOf i s t := by
  rcases checkedLoad_cases s n ea (finishLoad s r v) with ⟨-, e⟩ | ⟨-, -, e⟩ | ⟨-, -, e⟩
  · exact nextOf_raise (e ▸ h)
  · cases e ▸ h
  · cases e ▸ h
    exact .load r v

theorem nextOf_checkedStore {n : Nat} {ea : Word} {bs : List Byte}
    (h : checkedStore s n ea (.next (s.writeBytes ea bs).advance) = .next t) (hn : bs.length = n) : NextOf i s t := by
  subst hn
  rcases checkedStore_cases s bs.length ea (.next (s.writeBytes ea bs).advance) with
    ⟨-, e⟩ | ⟨-, -, e⟩ | ⟨-, -, -, e⟩ | ⟨-, hmapped, htext, e⟩
  · exact nextOf_raise (e ▸ h)
  · cases e ▸ h
  · cases e ▸ h
  · cases e ▸ h
    exact .store ea bs hmapped htext

/-- What passes the check of R171 ran outside a delay slot. -/
theorem unlessInDelaySlot_next {x : StepOutcome} (h : unlessInDelaySlot s x = .next t) :
    s.inDelay = false ∧ x = .next t := by
  rcases unlessInDelaySlot_cases s x with ⟨-, e⟩ | ⟨hd, e⟩
  · cases e ▸ h
  · exact ⟨hd, e ▸ h⟩

theorem nextOf_branchIf {taken : Bool} {imm : Imm16} (h : branchIf s taken imm = .next t) : NextOf i s t := by
  rcases branchIf_cases s taken imm with ⟨-, e⟩ | ⟨hd, -, e⟩ | ⟨hd, -, e⟩
  · cases e ▸ h
  · cases e ▸ h
    exact .transfer _ hd
  · cases e ▸ h
    exact .notTaken hd

theorem nextOf_branchIfAndLink {taken : Bool} {imm : Imm16} (hi : i.mnemonic ∈ drawingMnemonics)
    (h : branchIfAndLink s taken imm = .next t) : NextOf i s t := by
  rcases branchIfAndLink_cases s taken imm with ⟨-, e⟩ | ⟨hd, -, e⟩ | ⟨hd, -, e⟩
  · cases e ▸ h
  · cases e ▸ h
    exact .transferAndLink _ _ _ hd
  · cases e ▸ h
    exact .linkNotTaken hd hi

end SharedForms

section OneInstruction

variable {s t : State} {rd rs rt : Reg}

theorem nextOf_execDiv (h : execDiv rs rt s = .next t) : NextOf (.div rs rt) s t := by
  have hdraws : (Instr.div rs rt).mnemonic ∈ drawingMnemonics := by simp [Instr.mnemonic, drawingMnemonics]
  unfold execDiv at h
  split at h
  · exact nextOf_drawHiLo hdraws h
  · split at h
    · split at h
      · exact nextOf_writeHiLo h
      · exact nextOf_drawHiLo hdraws h
    · exact nextOf_writeHiLo h

theorem nextOf_execDivu (h : execDivu rs rt s = .next t) : NextOf (.divu rs rt) s t := by
  unfold execDivu at h
  split at h
  · exact nextOf_drawHiLo (by simp [Instr.mnemonic, drawingMnemonics]) h
  · exact nextOf_writeHiLo h

theorem nextOf_execJalr (h : execJalr rd rs s = .next t) : NextOf (.jalr rd rs) s t := by
  obtain ⟨hd, h⟩ := unlessInDelaySlot_next h
  split at h
  · cases h
  · cases h
    exact .transferAndLink _ _ _ hd

end OneInstruction

theorem bytesOfHalf_length (e : Endian) (v : Half) : (bytesOfHalf e v).length = 2 := by cases e <;> rfl

theorem bytesOfWord_length (e : Endian) (v : Word) : (bytesOfWord e v).length = 4 := by cases e <;> rfl

/-- Everything an instruction can do to reach a next state. -/
theorem exec_next {i : Instr} {s t : State} (h : exec i s = .next t) : NextOf i s t := by
  cases i
  case add | addi | sub => exact nextOf_writeUnlessOverflow h
  case addiu | addu | and | andi | lui | nor | or | ori | slt | slti | sltiu | sltu | subu | xor | xori =>
    exact nextOf_writeAndAdvance h
  case sll | sllv | sra | srav | srl | srlv | mfhi | mflo => exact nextOf_writeAndAdvance h
  case mthi | mtlo => exact nextOf_writeHiLo h
  case mult | multu => exact nextOf_writeProduct (by simp [Instr.mnemonic, drawingMnemonics]) h
  case div => exact nextOf_execDiv h
  case divu => exact nextOf_execDivu h
  case lb | lbu | lh | lhu | lw => exact nextOf_checkedLoad h
  case sb => exact nextOf_checkedStore h rfl
  case sh => exact nextOf_checkedStore h (bytesOfHalf_length _ _)
  case sw => exact nextOf_checkedStore h (bytesOfWord_length _ _)
  case beq | bne | bgez | bgtz | blez | bltz => exact nextOf_branchIf h
  case bgezal | bltzal => exact nextOf_branchIfAndLink (by simp [Instr.mnemonic, drawingMnemonics]) h
  case j | jr =>
    obtain ⟨hd, e⟩ := unlessInDelaySlot_next h
    cases e
    exact .transfer _ hd
  case jal =>
    obtain ⟨hd, e⟩ := unlessInDelaySlot_next h
    cases e
    exact .transferAndLink _ _ _ hd
  case jalr => exact nextOf_execJalr h
  case brk | syscall => exact nextOf_raise h

/-- A step that answers a next state took an exception before its instruction's rule, or ran a decoded instruction after
the checks of R208. -/
theorem step_next {s t : State} (h : step s = .next t) :
    (∃ v e info, s.params.trapVector = some v ∧ t = trapState s v e info) ∨
    ∃ i, aligned 4 s.pc = true ∧ s.mapped s.pc 4 = true ∧ decode s.params (s.read4 s.pc) = .instr i ∧
      loadUse s i = false ∧ exec i s = .next t := by
  unfold step at h
  rcases prepare_cases s with ⟨-, e⟩ | ⟨-, -, e⟩ | ⟨haligned, hmapped, e⟩
  · rw [e] at h
    obtain ⟨v, hv, rfl⟩ := raise_next h
    exact .inl ⟨v, _, _, hv, rfl⟩
  · simp [e] at h
  · rw [e] at h
    rcases prepareDecoded_cases s (s.read4 s.pc) with ⟨-, e⟩ | ⟨-, e⟩ | ⟨i, hdec, ⟨-, e⟩ | ⟨huse, e⟩⟩
    · rw [e] at h
      obtain ⟨v, hv, rfl⟩ := raise_next h
      exact .inl ⟨v, _, _, hv, rfl⟩
    · simp [e] at h
    · simp [e] at h
    · rw [e] at h
      exact .inr ⟨i, haligned, hmapped, hdec, huse, h⟩

/-! ### What every next state keeps -/

/-- A linking branch not taken changes no parameter. -/
@[simp] theorem linkNotTaken_params (s : State) : (linkNotTaken s).params = s.params := by
  rcases linkNotTaken_cases s with ⟨-, -, e⟩ | ⟨-, -, e⟩ | ⟨-, e⟩ | ⟨-, e⟩ <;> simp [e]

/-- No instruction changes a parameter. -/
theorem NextOf.params_eq {i : Instr} {s t : State} (h : NextOf i s t) : t.params = s.params := by
  cases h with
  | trap | hiLo => rfl
  | register | load | store | transfer | transferAndLink | notTaken | linkNotTaken => simp

/-- Only the drawing instructions move the counter of draws. -/
theorem NextOf.draws_eq {i : Instr} {s t : State} (h : NextOf i s t) (hi : i.mnemonic ∉ drawingMnemonics) :
    t.draws = s.draws := by
  cases h with
  | trap => rfl
  | hiLo _ _ n undrawn => simp [undrawn hi]
  | linkNotTaken _ draws => exact absurd draws hi
  | register | load | store | transfer | transferAndLink | notTaken => simp

/-- Settles O51: the forms of `NextOf` that count a draw carry the membership in `drawingMnemonics`. -/
theorem onlyTheseInstructionsDraw : Obligations.OnlyTheseInstructionsDraw :=
  fun _ _ _ h hi => (exec_next h).draws_eq hi

/-- Settles O56: an exception before the instruction keeps the parameters, and so does every instruction. -/
theorem parametersNeverChange : Obligations.ParametersNeverChange := by
  intro s t h
  rcases step_next h with ⟨v, e, info, -, rfl⟩ | ⟨i, -, -, -, -, h⟩
  · rfl
  · exact (exec_next h).params_eq

end Sys2Proof.Proofs
end

section
/-! # The state: registers, the step, the counters, and the invariant (`10_state.md`)

The next states are those of `NextOf`. What an instruction neither reads nor writes is one general theorem, `exec_apart`: a
change of the state that is apart from an instruction commutes with running it. -/

namespace Sys2Proof.Proofs

open Sys2Proof.Machine

/-! ### General registers -/

/-- Settles O8: a register after a write is `readReg_writeReg`, where the test of the write's own register 0 is redundant. -/
theorem registerWritesAndRegisterZero : Obligations.RegisterWritesAndRegisterZero := by
  intro s r q v
  refine ⟨s.readReg_zero, rfl, ?_⟩
  rw [State.readReg_writeReg]
  by_cases hq : q = 0#5 <;> simp [hq]

/-! ### The checks before an instruction -/

theorem aligned_iff (n : Nat) (a : Word) : aligned n a = true ↔ a.toNat % n = 0 := by simp [aligned]

theorem mapped_iff_allMapped (s : State) (a : Word) (n : Nat) : s.mapped a n = true ↔ AllMapped s a n := by
  simp [State.mapped, AllMapped]

/-- An instruction is free of a load use when loads interlock, nothing was loaded, or it does not name what was (R237). -/
theorem loadUse_eq_false_iff (s : State) (i : Instr) :
    loadUse s i = false ↔ s.params.loadDelay = .interlocked ∨ s.loadReg = 0#5 ∨ s.loadReg ∉ namedRegs i := by
  unfold loadUse
  cases s.params.loadDelay with
  | interlocked => simp
  | refuse => simp [or_iff_not_imp_left]

/-- A step that passes the checks of R208 is the instruction's rule. -/
theorem step_eq_exec {s : State} {i : Instr} (haligned : aligned 4 s.pc = true) (hmapped : s.mapped s.pc 4 = true)
    (hdec : decode s.params (s.read4 s.pc) = .instr i) (huse : loadUse s i = false) : step s = exec i s := by
  have hrun : prepare s = .run i := by simp [prepare, fetchWord, prepareDecoded, haligned, hmapped, hdec, huse]
  simp [step, hrun]

/-- Settles O44: its hypotheses are the checks of R208 in the words of the spec. -/
theorem stepRunsTheDecodedInstruction : Obligations.StepRunsTheDecodedInstruction :=
  fun s i haligned hmapped hdec huse =>
    step_eq_exec ((aligned_iff 4 s.pc).2 haligned) ((mapped_iff_allMapped s s.pc 4).2 hmapped) hdec
      ((loadUse_eq_false_iff s i).2 huse)

/-! ### The invariant

Its clauses are about two unrelated parts of the state, memory and the counters, and each part is kept for its own reason. -/

@[simp] theorem linkNotTaken_mem (s : State) : (linkNotTaken s).mem = s.mem := by
  rcases linkNotTaken_cases s with ⟨-, -, e⟩ | ⟨-, -, e⟩ | ⟨-, e⟩ | ⟨-, e⟩ <;> simp [e]

@[simp] theorem linkNotTaken_npc (s : State) : (linkNotTaken s).npc = s.npc := by
  rcases linkNotTaken_cases s with ⟨-, -, e⟩ | ⟨-, -, e⟩ | ⟨-, e⟩ | ⟨-, e⟩ <;> simp [e]

/-- Memory is canonical and inside MEM_MAP. -/
def MemoryInMap (s : State) : Prop := Memory.Wf s.mem ∧ ∀ c ∈ s.mem, Region.anyHolds s.params.memMap c.1 = true

/-- Straight-line code with `npc` after `pc`, or an aligned delay slot with nothing just loaded (R15 to R17, R155). -/
def CountersAgree (s : State) : Prop :=
  (s.inDelay = false ∧ s.npc = s.pc + 4#32) ∨ (s.inDelay = true ∧ s.pc.toNat % 4 = 0 ∧ s.loadReg = 0#5)

theorem inv_iff (s : State) : Inv s ↔ MemoryInMap s ∧ s.params.Wf ∧ CountersAgree s := by
  constructor
  · rintro ⟨hwf, hmapped, hparams, hstraight, hslot, hload⟩
    refine ⟨⟨hwf, hmapped⟩, hparams, ?_⟩
    cases hd : s.inDelay with
    | false => exact .inl ⟨hd, hstraight hd⟩
    | true => exact .inr ⟨hd, hslot hd, by simpa [hd] using hload⟩
  · rintro ⟨⟨hwf, hmapped⟩, hparams, ⟨hd, hnpc⟩ | ⟨hd, hpc, hload⟩⟩
    · exact ⟨hwf, hmapped, hparams, fun _ => hnpc, by simp [hd], fun _ => hd⟩
    · exact ⟨hwf, hmapped, hparams, by simp [hd], fun _ => hpc, fun hn => absurd hload hn⟩

theorem memoryInMap_congr {s t : State} (hmem : t.mem = s.mem) (hparams : t.params = s.params) (h : MemoryInMap s) :
    MemoryInMap t := by
  simpa [MemoryInMap, hmem, hparams] using h

/-- A store lists addresses that it has found in MEM_MAP. -/
theorem memoryInMap_writeBytes {s : State} {ea : Word} {bs : List Byte} (hmapped : s.mapped ea bs.length = true)
    (h : MemoryInMap s) : MemoryInMap (s.writeBytes ea bs) := by
  obtain ⟨hwf, hin⟩ := h
  refine ⟨Memory.writeBytes_wf ea bs hwf, fun c hc => ?_⟩
  rcases Memory.mem_writeBytes hc with ⟨k, hk, e⟩ | hold
  · rw [e]
    exact (mapped_iff_allMapped s ea bs.length).1 hmapped k hk
  · exact hin c hold

theorem NextOf.memoryInMap {i : Instr} {s t : State} (h : NextOf i s t) (hs : MemoryInMap s) : MemoryInMap t := by
  cases h with
  | store ea bs mapped => exact memoryInMap_writeBytes mapped hs
  | trap | hiLo => exact hs
  | register | load | transfer | transferAndLink | notTaken | linkNotTaken =>
    exact memoryInMap_congr (by simp) (by simp) hs

/-- What makes a delay slot aligned: it follows an aligned instruction that is in none itself. -/
theorem npc_aligned {s : State} (hs : CountersAgree s) (haligned : aligned 4 s.pc = true) (outside : s.inDelay = false) :
    s.npc.toNat % 4 = 0 := by
  have hpc : s.pc.toNat % 4 = 0 := (aligned_iff 4 s.pc).1 haligned
  rcases hs with ⟨-, hnpc⟩ | ⟨hd, -⟩
  · rw [hnpc]
    bv_omega
  · simp [outside] at hd

theorem NextOf.countersAgree {i : Instr} {s t : State} (h : NextOf i s t) (hs : CountersAgree s)
    (haligned : aligned 4 s.pc = true) : CountersAgree t := by
  cases h with
  | trap | hiLo => exact .inl ⟨rfl, rfl⟩
  | register | load | store => exact .inl (by simp)
  | transfer _ outside | transferAndLink _ _ _ outside | notTaken outside | linkNotTaken outside =>
    exact .inr (by simpa using npc_aligned hs haligned outside)

/-- Settles O52: an exception before the instruction goes to the vector in straight-line order; an instruction that runs was
fetched from an aligned `pc`, which is what its delay slot needs. -/
theorem stepKeepsTheInvariant : Obligations.StepKeepsTheInvariant := by
  intro s t hs h
  have hparams : t.params = s.params := parametersNeverChange s t h
  rw [inv_iff] at hs ⊢
  obtain ⟨hmemory, hwf, hcounters⟩ := hs
  rcases step_next h with ⟨v, e, info, -, rfl⟩ | ⟨i, haligned, -, -, -, h⟩
  · exact ⟨hmemory, hwf, .inl ⟨rfl, rfl⟩⟩
  · exact ⟨(exec_next h).memoryInMap hmemory, hparams ▸ hwf, (exec_next h).countersAgree hcounters haligned⟩

/-! ### What the next step is told (R16, R17) -/

/-- No instruction chooses the one that follows it, but for an exception with a trap vector. -/
theorem NextOf.pc_eq {i : Instr} {s t : State} (h : NextOf i s t) :
    t.pc = s.npc ∨ s.params.trapVector = some t.pc ∧ t.npc = t.pc + 4#32 := by
  cases h with
  | trap _ _ vector => exact .inr ⟨vector, rfl⟩
  | hiLo => exact .inl rfl
  | register | load | store | transfer | transferAndLink | notTaken | linkNotTaken => exact .inl (by simp)

/-- If the outcome is a next state, then that state has `in_delay = d`, and `load_reg` is `l` if it is not 0. -/
def Tells (d : Bool) (l : Reg) (o : StepOutcome) : Prop :=
  ∀ t, o = .next t → t.inDelay = d ∧ (t.loadReg ≠ 0#5 → t.loadReg = l)

section Tells

variable {d : Bool} {l : Reg} {s : State}

theorem tells_next {t : State} (hd : t.inDelay = d) (hl : t.loadReg ≠ 0#5 → t.loadReg = l) : Tells d l (.next t) := by
  rintro _ ⟨⟩
  exact ⟨hd, hl⟩

theorem tells_refused (r : Refusal) : Tells d l (.refused r) := by
  rintro _ ⟨⟩

theorem tells_raise (e : Exception) (info : Word) : Tells false l (raise e info s) := by
  intro t h
  obtain ⟨v, -, rfl⟩ := raise_next h
  exact ⟨rfl, absurd rfl⟩

theorem tells_writeAndAdvance (r : Reg) (v : Word) : Tells false l (writeAndAdvance s r v) := tells_next rfl (absurd rfl)

theorem tells_writeHiLo (hi lo : Word) : Tells false l (writeHiLo s hi lo) := tells_next rfl (absurd rfl)

theorem tells_drawHiLo : Tells false l (drawHiLo s) := tells_next rfl (absurd rfl)

theorem tells_writeUnlessOverflow (o : Bool) (r : Reg) (v : Word) : Tells false l (writeUnlessOverflow s o r v) := by
  rcases writeUnlessOverflow_cases s o r v with ⟨-, e⟩ | ⟨-, e⟩
  · exact e ▸ tells_raise _ _
  · exact e ▸ tells_writeAndAdvance r v

theorem tells_writeProduct (p : BitVec 64) : Tells false l (writeProduct s p) := by
  rcases writeProduct_cases s p with ⟨-, e⟩ | ⟨-, e⟩ <;> exact e ▸ tells_writeHiLo _ _

theorem tells_execDiv (rs rt : Reg) : Tells false l (execDiv rs rt s) := by
  unfold execDiv
  split
  · exact tells_drawHiLo
  · split
    · split
      · exact tells_writeHiLo _ _
      · exact tells_drawHiLo
    · exact tells_writeHiLo _ _

theorem tells_execDivu (rs rt : Reg) : Tells false l (execDivu rs rt s) := by
  unfold execDivu
  split
  · exact tells_drawHiLo
  · exact tells_writeHiLo _ _

theorem tells_checkedLoad (n : Nat) (ea : Word) (rt : Reg) (v : Word) :
    Tells false rt (checkedLoad s n ea (finishLoad s rt v)) := by
  rcases checkedLoad_cases s n ea (finishLoad s rt v) with ⟨-, e⟩ | ⟨-, -, e⟩ | ⟨-, -, e⟩ <;> rw [e]
  · exact tells_raise _ _
  · exact tells_refused _
  · exact tells_next rfl fun _ => rfl

theorem tells_checkedStore (n : Nat) (ea : Word) (t : State) : Tells false l (checkedStore s n ea (.next t.advance)) := by
  rcases checkedStore_cases s n ea (.next t.advance) with ⟨-, e⟩ | ⟨-, -, e⟩ | ⟨-, -, -, e⟩ | ⟨-, -, -, e⟩ <;> rw [e]
  · exact tells_raise _ _
  · exact tells_refused _
  · exact tells_refused _
  · exact tells_next rfl (absurd rfl)

theorem tells_unlessInDelaySlot {x : StepOutcome} (h : Tells d l x) : Tells d l (unlessInDelaySlot s x) := by
  rcases unlessInDelaySlot_cases s x with ⟨-, e⟩ | ⟨-, e⟩ <;> rw [e]
  · exact tells_refused _
  · exact h

theorem tells_transferTo (target : Word) : Tells true l (.next (s.transferTo target)) := tells_next rfl (absurd rfl)

theorem tells_notTaken : Tells true l (.next s.notTaken) := tells_next rfl (absurd rfl)

theorem tells_branchIf (taken : Bool) (imm : Imm16) : Tells true l (branchIf s taken imm) := by
  rcases branchIf_cases s taken imm with ⟨-, e⟩ | ⟨-, -, e⟩ | ⟨-, -, e⟩ <;> rw [e]
  · exact tells_refused _
  · exact tells_transferTo _
  · exact tells_notTaken

theorem tells_branchIfAndLink (taken : Bool) (imm : Imm16) : Tells true l (branchIfAndLink s taken imm) := by
  rcases branchIfAndLink_cases s taken imm with ⟨-, e⟩ | ⟨-, -, e⟩ | ⟨-, -, e⟩ <;> rw [e]
  · exact tells_refused _
  · exact tells_transferTo _
  · exact tells_notTaken

theorem tells_execJalr (rd rs : Reg) : Tells true l (execJalr rd rs s) := by
  refine tells_unlessInDelaySlot ?_
  split
  · exact tells_refused _
  · exact tells_transferTo _

end Tells

/-- The register that a load loads; 0 for the other instructions, of which the next step hears of no register. -/
def loadTarget : Instr → Reg
  | .lb rt _ _ | .lbu rt _ _ | .lh rt _ _ | .lhu rt _ _ | .lw rt _ _ => rt
  | _ => 0#5

theorem isLoad_of_loadTarget {i : Instr} (h : loadTarget i ≠ 0#5) :
    i.mnemonic.isLoad = true ∧ loadTarget i ∈ namedRegs i := by
  cases i
  case lb | lbu | lh | lhu | lw => exact ⟨rfl, List.mem_cons_self⟩
  all_goals exact absurd rfl h

/-- What an instruction tells the next step follows from its kind. -/
theorem tells_exec (i : Instr) (s : State) : Tells i.mnemonic.isControlTransfer (loadTarget i) (exec i s) := by
  cases i
  case add | addi | sub => exact tells_writeUnlessOverflow _ _ _
  case addiu | addu | and | andi | lui | nor | or | ori | slt | slti | sltiu | sltu | subu | xor | xori =>
    exact tells_writeAndAdvance _ _
  case sll | sllv | sra | srav | srl | srlv | mfhi | mflo => exact tells_writeAndAdvance _ _
  case mthi | mtlo => exact tells_writeHiLo _ _
  case mult | multu => exact tells_writeProduct _
  case div => exact tells_execDiv _ _
  case divu => exact tells_execDivu _ _
  case lb | lbu | lh | lhu | lw => exact tells_checkedLoad _ _ _ _
  case sb | sh | sw => exact tells_checkedStore _ _ _
  case beq | bne | bgez | bgtz | blez | bltz => exact tells_branchIf _ _
  case bgezal | bltzal => exact tells_branchIfAndLink _ _
  case j | jal | jr => exact tells_unlessInDelaySlot (tells_transferTo _)
  case jalr => exact tells_execJalr _ _
  case brk | syscall => exact tells_raise _ _

/-- Settles O34: where the next instruction is comes from the inversion of `exec`, what it is told from `tells_exec`. -/
theorem theNextInstructionIsAtNpc : Obligations.TheNextInstructionIsAtNpc := by
  intro i s t h
  obtain ⟨hdelay, hload⟩ := tells_exec i s t h
  refine ⟨(exec_next h).pc_eq, by rw [hdelay], fun hn => ?_⟩
  have htarget : t.loadReg = loadTarget i := hload hn
  rw [htarget] at hn ⊢
  exact isLoad_of_loadTarget hn

/-! ### Changes apart from an instruction

`Beside` is what the shared operations need of a change, `Apart` what one instruction needs. Each lemma `_eq` says that the
change may be made before the operation or after it, or that the operation does not see it. -/

/-- A change of the state that keeps what every instruction may look at, and commutes with what every one may do. -/
structure Beside (f : State → State) : Prop where
  params_eq : ∀ s, (f s).params = s.params
  pc_eq : ∀ s, (f s).pc = s.pc
  npc_eq : ∀ s, (f s).npc = s.npc
  inDelay_eq : ∀ s, (f s).inDelay = s.inDelay
  draws_eq : ∀ s, (f s).draws = s.draws
  commit_eq : ∀ s n d l, (f s).commit n d l = f (s.commit n d l)
  afterDraw_eq : ∀ s, (f s).afterDraw = f s.afterDraw
  trapState_eq : ∀ s v e info, trapState (f s) v e info = f (trapState s v e info)

/-- The eight instructions of R21. -/
def hiLoMnemonics : List Mnemonic := [.DIV, .DIVU, .MULT, .MULTU, .MTHI, .MTLO, .MFHI, .MFLO]

/-- A change that is apart from the instruction `i`: `i` neither looks at nor writes what the change reaches. -/
structure Apart (f : State → State) (i : Instr) : Prop extends Beside f where
  readReg_eq : ∀ s, ∀ q ∈ namedRegs i, (f s).readReg q = s.readReg q
  writeReg_eq : ∀ s v, ∀ q ∈ namedRegs i, (f s).writeReg q v = f (s.writeReg q v)
  hi_eq : i.mnemonic ∈ hiLoMnemonics → ∀ s, (f s).hi = s.hi
  lo_eq : i.mnemonic ∈ hiLoMnemonics → ∀ s, (f s).lo = s.lo
  withHiLo_eq : i.mnemonic ∈ hiLoMnemonics → ∀ s h l, withHiLo h l (f s) = f (withHiLo h l s)
  readByte_eq : i.mnemonic.isLoad = true → ∀ s a, (f s).readByte a = s.readByte a
  writeBytes_eq : i.mnemonic.isStore = true → ∀ s a bs, (f s).writeBytes a bs = f (s.writeBytes a bs)

/-- `raise` with a trap vector. -/
theorem raise_of_vector {e : Exception} {info : Word} {s : State} {v : Word} (hv : s.params.trapVector = some v) :
    raise e info s = .next (trapState s v e info) := by
  simp only [raise, hv]
  rfl

section SharedFormsBeside

variable {f : State → State} (hf : Beside f) {s : State}

include hf

theorem Beside.raise_eq (e : Exception) (info : Word) : raise e info (f s) = mapNext f (raise e info s) := by
  cases hv : s.params.trapVector with
  | none => simp [raise, hf.params_eq, hv, mapNext, hf.pc_eq, hf.inDelay_eq]
  | some v =>
    have hv' : (f s).params.trapVector = some v := by rw [hf.params_eq, hv]
    rw [raise_of_vector hv, raise_of_vector hv', hf.trapState_eq]
    rfl

theorem Beside.advance_eq : (f s).advance = f s.advance := by simp only [State.advance, hf.npc_eq, hf.commit_eq]

theorem Beside.advanceLoad_eq (r : Reg) : (f s).advanceLoad r = f (s.advanceLoad r) := by
  simp only [State.advanceLoad, hf.npc_eq, hf.commit_eq]

theorem Beside.transferTo_eq (target : Word) : (f s).transferTo target = f (s.transferTo target) := hf.commit_eq _ _ _ _

theorem Beside.notTaken_eq : (f s).notTaken = f s.notTaken := by simp only [State.notTaken, hf.npc_eq, hf.commit_eq]

theorem Beside.branchTarget_eq (imm : Imm16) : branchTarget (f s) imm = branchTarget s imm := by
  simp only [branchTarget, hf.pc_eq, hf.params_eq]

theorem Beside.jumpTarget_eq (imm26 : Imm26) : jumpTarget (f s) imm26 = jumpTarget s imm26 := by
  simp only [jumpTarget, hf.npc_eq]

theorem Beside.linkValue_eq : linkValue (f s) = linkValue s := by simp only [linkValue, hf.pc_eq]

theorem Beside.drawWord_eq : (f s).drawWord = s.drawWord := by simp only [State.drawWord, hf.draws_eq]

theorem Beside.mapped_eq (a : Word) (n : Nat) : (f s).mapped a n = s.mapped a n := by
  simp only [State.mapped, hf.params_eq]

theorem Beside.touchesText_eq (a : Word) (n : Nat) : (f s).touchesText a n = s.touchesText a n := by
  simp only [State.touchesText, hf.params_eq]

theorem Beside.unlessInDelaySlot_eq {x y : StepOutcome} (h : y = mapNext f x) :
    unlessInDelaySlot (f s) y = mapNext f (unlessInDelaySlot s x) := by
  simp only [unlessInDelaySlot, hf.inDelay_eq, h]
  split <;> rfl

theorem Beside.checkedLoad_eq (n : Nat) (ea : Word) {x y : StepOutcome} (h : y = mapNext f x) :
    checkedLoad (f s) n ea y = mapNext f (checkedLoad s n ea x) := by
  simp only [checkedLoad, hf.mapped_eq, hf.raise_eq, h]
  cases aligned n ea <;> cases s.mapped ea n <;> rfl

theorem Beside.checkedStore_eq (n : Nat) (ea : Word) {x y : StepOutcome} (h : y = mapNext f x) :
    checkedStore (f s) n ea y = mapNext f (checkedStore s n ea x) := by
  simp only [checkedStore, hf.mapped_eq, hf.touchesText_eq, hf.raise_eq, h]
  cases aligned n ea <;> cases s.mapped ea n <;> cases s.touchesText ea n <;> rfl

theorem Beside.branchIf_eq (taken : Bool) (imm : Imm16) : branchIf (f s) taken imm = mapNext f (branchIf s taken imm) :=
  hf.unlessInDelaySlot_eq (by cases taken <;> simp [mapNext, hf.transferTo_eq, hf.notTaken_eq, hf.branchTarget_eq])

end SharedFormsBeside

section SharedFormsApart

variable {f : State → State} {i : Instr} (hf : Apart f i) {s : State} {r : Reg}

include hf

theorem Apart.effectiveAddress_eq (hr : r ∈ namedRegs i) (imm : Imm16) :
    effectiveAddress (f s) r imm = effectiveAddress s r imm := by
  simp only [effectiveAddress, hf.readReg_eq s r hr]

theorem Apart.writeAndAdvance_eq (hr : r ∈ namedRegs i) (v : Word) :
    writeAndAdvance (f s) r v = mapNext f (writeAndAdvance s r v) := by
  simp [hf.writeReg_eq s v r hr, hf.advance_eq, mapNext]

theorem Apart.writeUnlessOverflow_eq (o : Bool) (hr : r ∈ namedRegs i) (v : Word) :
    writeUnlessOverflow (f s) o r v = mapNext f (writeUnlessOverflow s o r v) := by
  simp only [writeUnlessOverflow, hf.raise_eq, hf.pc_eq, hf.writeAndAdvance_eq hr]
  split <;> rfl

theorem Apart.finishLoad_eq (hr : r ∈ namedRegs i) (v : Word) :
    finishLoad (f s) r v = mapNext f (finishLoad s r v) := by
  simp [hf.writeReg_eq s v r hr, hf.advanceLoad_eq, mapNext]

theorem Apart.writeHiLo_eq (hi : i.mnemonic ∈ hiLoMnemonics) (h l : Word) :
    writeHiLo (f s) h l = mapNext f (writeHiLo s h l) :=
  calc writeHiLo (f s) h l
    _ = .next (withHiLo h l (f s)).advance := rfl
    _ = .next (f (withHiLo h l s).advance) := by rw [hf.withHiLo_eq hi, hf.advance_eq]

theorem Apart.drawHiLo_eq (hi : i.mnemonic ∈ hiLoMnemonics) : drawHiLo (f s) = mapNext f (drawHiLo s) := by
  simp only [drawHiLo, hf.afterDraw_eq, hf.drawWord_eq, hf.writeHiLo_eq hi]

theorem Apart.writeProduct_eq (hi : i.mnemonic ∈ hiLoMnemonics) (p : BitVec 64) :
    writeProduct (f s) p = mapNext f (writeProduct s p) := by
  simp only [writeProduct, hf.params_eq, hf.afterDraw_eq, hf.drawWord_eq, hf.writeHiLo_eq hi]
  split <;> rfl

theorem Apart.linkNotTaken_eq (hlink : linkReg ∈ namedRegs i) : linkNotTaken (f s) = f (linkNotTaken s) := by
  simp only [linkNotTaken, State.drawLink, hf.params_eq, hf.draws_eq, hf.linkValue_eq, hf.writeReg_eq _ _ _ hlink,
    hf.afterDraw_eq]
  split
  · exact (apply_ite f _ _ _).symm
  · rfl
  · rfl

theorem Apart.branchIfAndLink_eq (hlink : linkReg ∈ namedRegs i) (taken : Bool) (imm : Imm16) :
    branchIfAndLink (f s) taken imm = mapNext f (branchIfAndLink s taken imm) :=
  hf.unlessInDelaySlot_eq (by
    cases taken <;> simp [mapNext, hf.transferTo_eq, hf.notTaken_eq, hf.branchTarget_eq, hf.linkNotTaken_eq hlink,
      hf.writeReg_eq _ _ _ hlink, hf.linkValue_eq])

theorem Apart.read1_eq (hi : i.mnemonic.isLoad = true) (a : Word) : (f s).read1 a = s.read1 a := hf.readByte_eq hi s a

theorem Apart.read2_eq (hi : i.mnemonic.isLoad = true) (a : Word) : (f s).read2 a = s.read2 a := by
  simp only [State.read2, hf.params_eq, hf.readByte_eq hi]

theorem Apart.read4_eq (hi : i.mnemonic.isLoad = true) (a : Word) : (f s).read4 a = s.read4 a := by
  simp only [State.read4, hf.params_eq, hf.readByte_eq hi]

/-- A store of the same bytes. -/
theorem Apart.checkedStore_writeBytes_eq (hi : i.mnemonic.isStore = true) (n : Nat) (ea : Word) (bs : List Byte) :
    checkedStore (f s) n ea (.next ((f s).writeBytes ea bs).advance) =
      mapNext f (checkedStore s n ea (.next (s.writeBytes ea bs).advance)) :=
  hf.checkedStore_eq n ea (by simp [mapNext, hf.writeBytes_eq hi, hf.advance_eq])

end SharedFormsApart

section OneInstructionApart

variable {f : State → State} {s : State} {rd rs rt : Reg}

theorem execDiv_apart (hf : Apart f (.div rs rt)) : execDiv rs rt (f s) = mapNext f (execDiv rs rt s) := by
  have hi : (Instr.div rs rt).mnemonic ∈ hiLoMnemonics := by simp [Instr.mnemonic, hiLoMnemonics]
  simp only [execDiv, writeSignedQuotient, hf.readReg_eq s rs (by simp [namedRegs]),
    hf.readReg_eq s rt (by simp [namedRegs]), hf.params_eq, hf.writeHiLo_eq hi, hf.drawHiLo_eq hi]
  split_ifs
  · rfl
  · split <;> rfl
  · rfl

theorem execDivu_apart (hf : Apart f (.divu rs rt)) : execDivu rs rt (f s) = mapNext f (execDivu rs rt s) := by
  have hi : (Instr.divu rs rt).mnemonic ∈ hiLoMnemonics := by simp [Instr.mnemonic, hiLoMnemonics]
  simp only [execDivu, hf.readReg_eq s rs (by simp [namedRegs]), hf.readReg_eq s rt (by simp [namedRegs]),
    hf.writeHiLo_eq hi, hf.drawHiLo_eq hi]
  split_ifs <;> rfl

theorem execJalr_apart (hf : Apart f (.jalr rd rs)) : execJalr rd rs (f s) = mapNext f (execJalr rd rs s) := by
  refine hf.unlessInDelaySlot_eq ?_
  simp only [hf.linkValue_eq, hf.readReg_eq s rs (by simp [namedRegs]), hf.writeReg_eq s _ rd (by simp [namedRegs]),
    hf.transferTo_eq]
  split_ifs <;> rfl

end OneInstructionApart

/-- A change that is apart from an instruction may be made before it or after it. -/
theorem exec_apart {f : State → State} {i : Instr} (hf : Apart f i) (s : State) :
    exec i (f s) = mapNext f (exec i s) := by
  have hread := hf.readReg_eq s
  cases i <;> simp only [namedRegs, List.forall_mem_cons, List.not_mem_nil] at hread
  case add | addi | sub =>
    simp only [exec, execAdd, execAddi, execSub, hread]
    exact hf.writeUnlessOverflow_eq _ (by simp [namedRegs]) _
  case addiu | addu | and | andi | lui | nor | or | ori | subu | xor | xori =>
    simp only [exec, execAddiu, execAddu, execAnd, execAndi, execLui, execNor, execOr, execOri, execSubu, execXor, execXori,
      hread, hf.params_eq]
    exact hf.writeAndAdvance_eq (by simp [namedRegs]) _
  case slt | slti | sltiu | sltu | sll | sllv | sra | srav | srl | srlv =>
    simp only [exec, execSlt, execSlti, execSltiu, execSltu, execSll, execSllv, execSra, execSrav, execSrl, execSrlv,
      hread, hf.params_eq]
    exact hf.writeAndAdvance_eq (by simp [namedRegs]) _
  case mfhi | mflo =>
    simp only [exec, execMfhi, execMflo, hf.hi_eq (by simp [Instr.mnemonic, hiLoMnemonics]),
      hf.lo_eq (by simp [Instr.mnemonic, hiLoMnemonics])]
    exact hf.writeAndAdvance_eq (by simp [namedRegs]) _
  case mthi | mtlo =>
    simp only [exec, execMthi, execMtlo, hread, hf.hi_eq (by simp [Instr.mnemonic, hiLoMnemonics]),
      hf.lo_eq (by simp [Instr.mnemonic, hiLoMnemonics])]
    exact hf.writeHiLo_eq (by simp [Instr.mnemonic, hiLoMnemonics]) _ _
  case mult | multu =>
    simp only [exec, execMult, execMultu, hread]
    exact hf.writeProduct_eq (by simp [Instr.mnemonic, hiLoMnemonics]) _
  case div => exact execDiv_apart hf
  case divu => exact execDivu_apart hf
  case lb | lbu | lh | lhu | lw =>
    simp only [exec, execLb, execLbu, execLh, execLhu, execLw, effectiveAddress, hread, hf.read1_eq rfl, hf.read2_eq rfl,
      hf.read4_eq rfl]
    exact hf.checkedLoad_eq _ _ (hf.finishLoad_eq (by simp [namedRegs]) _)
  case sb | sh | sw =>
    simp only [exec, execSb, execSh, execSw, effectiveAddress, hread, State.write1, State.write2, State.write4, hf.params_eq]
    exact hf.checkedStore_writeBytes_eq rfl _ _ _
  case beq | bne | bgez | bgtz | blez | bltz =>
    simp only [exec, execBeq, execBne, execBgez, execBgtz, execBlez, execBltz, hread]
    exact hf.branchIf_eq _ _
  case bgezal | bltzal =>
    simp only [exec, execBgezal, execBltzal, hread]
    exact hf.branchIfAndLink_eq (by simp [namedRegs]) _ _
  case j | jr =>
    simp only [exec, execJ, execJr, hread, hf.jumpTarget_eq, hf.transferTo_eq]
    exact hf.unlessInDelaySlot_eq rfl
  case jal =>
    simp only [exec, execJal, hf.jumpTarget_eq, hf.linkValue_eq, hf.writeReg_eq s _ linkReg (by simp [namedRegs]),
      hf.transferTo_eq]
    exact hf.unlessInDelaySlot_eq rfl
  case jalr => exact execJalr_apart hf
  case brk | syscall =>
    simp only [exec, execBreak, execSyscall, hf.pc_eq]
    exact hf.raise_eq _ _

/-! ### Two changes: another value in a general register, and in HI and LO -/

/-- Writes to two registers commute. -/
theorem writeReg_comm (s : State) {q r : Reg} (h : q ≠ r) (v w : Word) :
    (s.writeReg r v).writeReg q w = (s.writeReg q w).writeReg r v := by
  have hn : r.toNat ≠ q.toNat := fun e => h (BitVec.eq_of_toNat_eq e.symm)
  by_cases hq : q = 0#5
  · simp [State.writeReg, hq]
  by_cases hr : r = 0#5
  · simp [State.writeReg, hr]
  · simp [State.writeReg, hq, hr, Vector.set_comm v w hn]

theorem beside_writeReg (r : Reg) (v : Word) : Beside (·.writeReg r v) where
  params_eq s := s.writeReg_params r v
  pc_eq s := s.writeReg_pc r v
  npc_eq s := s.writeReg_npc r v
  inDelay_eq s := s.writeReg_inDelay r v
  draws_eq s := s.writeReg_draws r v
  commit_eq s n d l := by unfold State.writeReg; split <;> rfl
  afterDraw_eq s := by unfold State.writeReg; split <;> rfl
  trapState_eq s u e info := by unfold State.writeReg; split <;> rfl

theorem apart_writeReg {i : Instr} {r : Reg} (hr : r ∉ namedRegs i) (v : Word) : Apart (·.writeReg r v) i where
  toBeside := beside_writeReg r v
  readReg_eq s q hq := by simp [State.readReg_writeReg, ne_of_mem_of_not_mem hq hr]
  writeReg_eq s w q hq := writeReg_comm s (ne_of_mem_of_not_mem hq hr) v w
  hi_eq _ s := s.writeReg_hi r v
  lo_eq _ s := s.writeReg_lo r v
  withHiLo_eq _ s h l := by unfold State.writeReg; split <;> rfl
  readByte_eq _ s a := s.readByte_writeReg r v a
  writeBytes_eq _ s a bs := by unfold State.writeReg; split <;> rfl

/-- Settles O48: a write to a register that the instruction does not name is apart from it. -/
theorem unnamedRegistersPlayNoPart : Obligations.UnnamedRegistersPlayNoPart :=
  fun _ s _ v hr => exec_apart (apart_writeReg hr v) s

theorem beside_withHiLo (h l : Word) : Beside (withHiLo h l) where
  params_eq _ := rfl
  pc_eq _ := rfl
  npc_eq _ := rfl
  inDelay_eq _ := rfl
  draws_eq _ := rfl
  commit_eq _ _ _ _ := rfl
  afterDraw_eq _ := rfl
  trapState_eq _ _ _ _ := rfl

theorem apart_withHiLo {i : Instr} (hi : i.mnemonic ∉ hiLoMnemonics) (h l : Word) : Apart (withHiLo h l) i where
  toBeside := beside_withHiLo h l
  readReg_eq _ _ _ := rfl
  writeReg_eq s v q _ := by unfold State.writeReg; split <;> rfl
  hi_eq hn := absurd hn hi
  lo_eq hn := absurd hn hi
  withHiLo_eq hn := absurd hn hi
  readByte_eq _ _ _ := rfl
  writeBytes_eq _ _ _ _ := rfl

/-- Settles O50: other values in HI and LO are apart from all but the eight. -/
theorem onlyEightInstructionsTouchHiLo : Obligations.OnlyEightInstructionsTouchHiLo :=
  fun _ s h l hi => exec_apart (apart_withHiLo hi h l) s

end Sys2Proof.Proofs
end

section
/-! # Memory: byte order, the checks of an access, who is refused, and what no step changes (`20_memory.md`)

First what a byte reads as inside and outside a write, from which a value of each width is read back. Then what the checks of a
load or store answer, one lemma for each way they can fail; the refusals of all 54 instructions; and two frames, one over the
instructions that are no load or store and one over the bytes that no store may reach. -/

namespace Sys2Proof.Proofs

open Sys2Proof.Machine

/-! ### Reading back what was written (R34, R35) -/

section Written

variable (s : State) (a : Word)

/-- The `k`-th byte of a write lies `k` addresses after its start, modulo 2^32. -/
theorem readByte_writeBytes_offset {bs : List Byte} {k : Nat} {b : Byte} (hlen : bs.length < 4294967296)
    (hk : bs[k]? = some b) : (s.writeBytes a bs).readByte (a + BitVec.ofNat 32 k) = b := by
  obtain ⟨hlt, -⟩ := List.getElem?_eq_some_iff.1 hk
  have hsub : (a + BitVec.ofNat 32 k - a).toNat = k := by bv_omega
  rw [State.readByte_writeBytes s a bs hlen, hsub, hk, Option.getD_some]

/-- An address at or past the end of a write reads as before. -/
theorem readByte_writeBytes_outside {bs : List Byte} {b : Word} (hout : bs.length ≤ (b - a).toNat) :
    (s.writeBytes a bs).readByte b = s.readByte b := by
  have hlen : bs.length < 4294967296 := by omega
  rw [State.readByte_writeBytes s a bs hlen, List.getElem?_eq_none hout, Option.getD_none]

theorem readByte_write2_of_bytes {v : Half} {b0 b1 : Byte} (hbytes : bytesOfHalf s.params.endian v = [b0, b1]) :
    (s.write2 a v).readByte a = b0 ∧ (s.write2 a v).readByte (a + 1#32) = b1 := by
  have offset := fun k b => readByte_writeBytes_offset s a (bs := [b0, b1]) (k := k) (b := b) (by simp)
  rw [State.write2, hbytes]
  exact ⟨by simpa using offset 0 b0 rfl, offset 1 b1 rfl⟩

theorem readByte_write4_of_bytes {v : Word} {b0 b1 b2 b3 : Byte}
    (hbytes : bytesOfWord s.params.endian v = [b0, b1, b2, b3]) :
    (s.write4 a v).readByte a = b0 ∧ (s.write4 a v).readByte (a + 1#32) = b1 ∧
      (s.write4 a v).readByte (a + 2#32) = b2 ∧ (s.write4 a v).readByte (a + 3#32) = b3 := by
  have offset := fun k b => readByte_writeBytes_offset s a (bs := [b0, b1, b2, b3]) (k := k) (b := b) (by simp)
  rw [State.write4, hbytes]
  exact ⟨by simpa using offset 0 b0 rfl, offset 1 b1 rfl, offset 2 b2 rfl, offset 3 b3 rfl⟩

theorem half_of_its_bytes (v : Half) : v.extractLsb' 8 8 ++ v.extractLsb' 0 8 = v := by
  apply BitVec.eq_of_getLsbD_eq
  intro i hi
  rw [getLsbD_concat]
  simp only [BitVec.getLsbD_extractLsb']
  grind

theorem word_of_its_bytes (v : Word) :
    v.extractLsb' 24 8 ++ v.extractLsb' 16 8 ++ v.extractLsb' 8 8 ++ v.extractLsb' 0 8 = v := by
  apply BitVec.eq_of_getLsbD_eq
  intro i hi
  rw [getLsbD_concat, getLsbD_concat, getLsbD_concat]
  simp only [BitVec.getLsbD_extractLsb']
  grind

/-- Either byte order takes a half word apart into two bytes that it puts together again. -/
theorem exists_bytesOfHalf (e : Endian) (v : Half) : ∃ b0 b1, bytesOfHalf e v = [b0, b1] ∧ halfOfBytes e b0 b1 = v := by
  cases e <;> exact ⟨_, _, rfl, half_of_its_bytes v⟩

/-- Either byte order takes a word apart into four bytes that it puts together again. -/
theorem exists_bytesOfWord (e : Endian) (v : Word) :
    ∃ b0 b1 b2 b3, bytesOfWord e v = [b0, b1, b2, b3] ∧ wordOfBytes e b0 b1 b2 b3 = v := by
  cases e <;> exact ⟨_, _, _, _, rfl, word_of_its_bytes v⟩

theorem read1_write1 (v : Byte) : (s.write1 a v).read1 a = v := by
  simpa [State.read1, State.write1] using readByte_writeBytes_offset s a (bs := [v]) (k := 0) (by simp) rfl

theorem read2_write2 (v : Half) : (s.write2 a v).read2 a = v := by
  obtain ⟨b0, b1, hbytes, hv⟩ := exists_bytesOfHalf s.params.endian v
  obtain ⟨h0, h1⟩ := readByte_write2_of_bytes s a hbytes
  rw [State.read2, h0, h1, State.write2_params, hv]

theorem read4_write4 (v : Word) : (s.write4 a v).read4 a = v := by
  obtain ⟨b0, b1, b2, b3, hbytes, hv⟩ := exists_bytesOfWord s.params.endian v
  obtain ⟨h0, h1, h2, h3⟩ := readByte_write4_of_bytes s a hbytes
  rw [State.read4, h0, h1, h2, h3, State.write4_params, hv]

/-- The first byte and the last half word, by address, of a word just written. -/
theorem read_parts_write4 {v : Word} {b0 b1 b2 b3 : Byte} (hbytes : bytesOfWord s.params.endian v = [b0, b1, b2, b3]) :
    (s.write4 a v).read1 a = b0 ∧ (s.write4 a v).read2 (a + 2#32) = halfOfBytes s.params.endian b2 b3 := by
  obtain ⟨h0, -, h2, h3⟩ := readByte_write4_of_bytes s a hbytes
  have hnext : a + 2#32 + 1#32 = a + 3#32 := by bv_omega
  exact ⟨h0, by rw [State.read2, hnext, h2, h3, State.write4_params]⟩

end Written

/-- Settles O9: each width is read back, the frame is that of a write of so many bytes, and R35's example word is laid out
byte by byte. -/
theorem memoryReadAfterWrite : Obligations.MemoryReadAfterWrite := by
  intro s a
  refine ⟨fun v => ⟨read1_write1 s a v, fun b hb => ?_⟩, fun v => ⟨read2_write2 s a v, fun b hb => ?_⟩,
    fun v => ⟨read4_write4 s a v, fun b hb => ?_⟩, fun he => ?_, fun he => ?_⟩
  · have hout : 1 ≤ (b - a).toNat := by bv_omega
    exact readByte_writeBytes_outside s a hout
  · exact readByte_writeBytes_outside s a (by rwa [bytesOfHalf_length])
  · exact readByte_writeBytes_outside s a (by rwa [bytesOfWord_length])
  · have hparts := read_parts_write4 s a (v := 0x11223344#32) (by rw [he]; rfl)
    rwa [he] at hparts
  · have hparts := read_parts_write4 s a (v := 0x11223344#32) (by rw [he]; rfl)
    rwa [he] at hparts

/-- Settles O46: the load from outside is a write of the word, and a fetch reads it back. -/
theorem aStoredWordIsFetched : Obligations.AStoredWordIsFetched := by
  intro s w hmapped
  have hmod : BitVec.ofNat 32 (w % 2 ^ 32) = BitVec.ofNat 32 w := BitVec.eq_of_toNat_eq (by simp)
  have hfetch : (s.write4 s.pc (BitVec.ofNat 32 w)).mapped s.pc 4 = true := (mapped_iff_allMapped s s.pc 4).2 hmapped
  rw [State.withFetchWord, storeWordAtPc, hmod, fetchWord, State.write4_pc, if_pos hfetch, read4_write4]

/-! ### The checks of a load or store (R36, R40, R43, R175) -/

theorem touchesText_eq_false_iff (s : State) (a : Word) (n : Nat) : s.touchesText a n = false ↔ NoneInText s a n := by
  simp [State.touchesText, NoneInText]

/-- Taking an exception is what the statements about traps say, under either setting of TRAP_VECTOR. -/
theorem raises_raise (e : Exception) (info : Word) (s : State) : Raises (raise e info s) s e info := by
  constructor
  · intro hv
    simp [raise, hv, trapOf]
  · intro v hv
    exact ⟨trapState s v e info, raise_of_vector hv, fun _ => rfl, ⟨rfl, rfl⟩, fun _ => rfl, rfl, rfl, rfl, rfl, rfl, rfl, rfl⟩

section Checks

variable {s : State} {n : Nat} {ea : Word} {x : StepOutcome}

theorem checkedLoad_misaligned (h : ea.toNat % n ≠ 0) : checkedLoad s n ea x = raise .addressErrorLoad ea s := by
  simp [checkedLoad, aligned_iff, h]

theorem checkedStore_misaligned (h : ea.toNat % n ≠ 0) : checkedStore s n ea x = raise .addressErrorStore ea s := by
  simp [checkedStore, aligned_iff, h]

theorem checkedLoad_unmapped (haligned : ea.toNat % n = 0) (hmapped : ¬ AllMapped s ea n) :
    checkedLoad s n ea x = .refused .unmapped := by
  simp [checkedLoad, aligned_iff, haligned, mapped_iff_allMapped, hmapped]

theorem checkedStore_unmapped (haligned : ea.toNat % n = 0) (hmapped : ¬ AllMapped s ea n) :
    checkedStore s n ea x = .refused .unmapped := by
  simp [checkedStore, aligned_iff, haligned, mapped_iff_allMapped, hmapped]

theorem checkedStore_text (haligned : ea.toNat % n = 0) (hmapped : AllMapped s ea n) (htext : ¬ NoneInText s ea n) :
    checkedStore s n ea x = .refused .storeToText := by
  have htouches : s.touchesText ea n = true := by
    rwa [← touchesText_eq_false_iff, Bool.not_eq_false] at htext
  simp [checkedStore, aligned_iff, haligned, mapped_iff_allMapped, hmapped, htouches]

end Checks

/-- Settles O38: each of the five instructions is its access behind the checks of its width. -/
theorem misalignedAccessRaises : Obligations.MisalignedAccessRaises := by
  rintro s rt rs imm ea rfl
  have load {n : Nat} {x : StepOutcome} (h : (addressOf s rs imm).toNat % n ≠ 0) :
      Raises (checkedLoad s n (addressOf s rs imm) x) s .addressErrorLoad (addressOf s rs imm) :=
    checkedLoad_misaligned h ▸ raises_raise _ _ s
  have store {n : Nat} {x : StepOutcome} (h : (addressOf s rs imm).toNat % n ≠ 0) :
      Raises (checkedStore s n (addressOf s rs imm) x) s .addressErrorStore (addressOf s rs imm) :=
    checkedStore_misaligned h ▸ raises_raise _ _ s
  exact ⟨fun h => ⟨load h, load h, store h⟩, fun h => ⟨load h, store h⟩⟩

/-- Settles O39: each instruction is its access behind the checks of its width; a single byte is always aligned. -/
theorem unmappedAndTextAccessRefused : Obligations.UnmappedAndTextAccessRefused := by
  rintro s rt rs imm ea rfl
  exact ⟨fun ha hm => ⟨checkedLoad_unmapped ha hm, checkedLoad_unmapped ha hm, checkedStore_unmapped ha hm⟩,
    fun ha hm => ⟨checkedLoad_unmapped ha hm, checkedStore_unmapped ha hm⟩,
    fun hm => checkedStore_unmapped (Nat.mod_one _) hm,
    fun hm ht => checkedStore_text (Nat.mod_one _) hm ht,
    fun ha hm ht => checkedStore_text ha hm ht,
    fun ha hm ht => checkedStore_text ha hm ht⟩

/-! ### Refusals -/

section Refusals

variable {s : State} {r : Refusal}

theorem writeUnlessOverflow_ne_refused (o : Bool) (q : Reg) (v : Word) : writeUnlessOverflow s o q v ≠ .refused r := by
  rcases writeUnlessOverflow_cases s o q v with ⟨-, e⟩ | ⟨-, e⟩ <;> rw [e]
  · exact raise_ne_refused _ _ s r
  · exact nofun

theorem writeProduct_ne_refused (p : BitVec 64) : writeProduct s p ≠ .refused r := by
  rcases writeProduct_cases s p with ⟨-, e⟩ | ⟨-, e⟩ <;> rw [e] <;> exact nofun

theorem execDiv_ne_refused (rs rt : Reg) : execDiv rs rt s ≠ .refused r := by
  unfold execDiv
  split
  · exact nofun
  · split
    · split <;> exact nofun
    · exact nofun

theorem execDivu_ne_refused (rs rt : Reg) : execDivu rs rt s ≠ .refused r := by
  unfold execDivu
  split <;> exact nofun

theorem checkedLoad_refused {n : Nat} {ea : Word} {t : State} (h : checkedLoad s n ea (.next t) = .refused r) :
    r = .unmapped := by
  rcases checkedLoad_cases s n ea (.next t) with ⟨-, e⟩ | ⟨-, -, e⟩ | ⟨-, -, e⟩ <;> rw [e] at h
  · exact absurd h (raise_ne_refused _ _ s r)
  · cases h
    rfl
  · cases h

theorem checkedStore_refused {n : Nat} {ea : Word} {t : State} (h : checkedStore s n ea (.next t) = .refused r) :
    r = .unmapped ∨ r = .storeToText := by
  rcases checkedStore_cases s n ea (.next t) with ⟨-, e⟩ | ⟨-, -, e⟩ | ⟨-, -, -, e⟩ | ⟨-, -, -, e⟩ <;> rw [e] at h
  · exact absurd h (raise_ne_refused _ _ s r)
  · cases h
    exact .inl rfl
  · cases h
    exact .inr rfl
  · cases h

theorem unlessInDelaySlot_refused {x : StepOutcome} (h : unlessInDelaySlot s x = .refused r) :
    (r = .controlTransferInDelaySlot ∧ s.inDelay = true) ∨ x = .refused r := by
  rcases unlessInDelaySlot_cases s x with ⟨hd, e⟩ | ⟨-, e⟩ <;> rw [e] at h
  · cases h
    exact .inl ⟨rfl, hd⟩
  · exact .inr h

/-- A control transfer whose effect has a meaning is refused in a delay slot only. -/
theorem unlessInDelaySlot_next_refused {t : State} (h : unlessInDelaySlot s (.next t) = .refused r) :
    r = .controlTransferInDelaySlot ∧ s.inDelay = true :=
  (unlessInDelaySlot_refused h).resolve_right nofun

theorem execJalr_refused {rd rs : Reg} (h : execJalr rd rs s = .refused r) :
    (r = .controlTransferInDelaySlot ∧ s.inDelay = true) ∨
      (r = .jalrSameRegister ∧ (Instr.jalr rd rs).wellFormed = false) := by
  refine (unlessInDelaySlot_refused h).imp_right fun hx => ?_
  split at hx
  · next hsame =>
    cases hx
    exact ⟨rfl, by simpa [Instr.wellFormed] using hsame⟩
  · cases hx

end Refusals

/-- Settles O43, by the shared form of each instruction's meaning. -/
theorem onlyTheListedRefusals : Obligations.OnlyTheListedRefusals := by
  intro i s r h
  cases i
  case add | addi | sub => exact absurd h (writeUnlessOverflow_ne_refused _ _ _)
  case addiu | addu | and | andi | lui | nor | or | ori | slt | slti | sltiu | sltu | subu | xor | xori => cases h
  case sll | sllv | sra | srav | srl | srlv | mfhi | mflo | mthi | mtlo => cases h
  case mult | multu => exact absurd h (writeProduct_ne_refused _)
  case div => exact absurd h (execDiv_ne_refused _ _)
  case divu => exact absurd h (execDivu_ne_refused _ _)
  case lb | lbu | lh | lhu | lw => exact .inl ⟨checkedLoad_refused h, .inl rfl⟩
  case sb | sh | sw =>
    rcases checkedStore_refused h with e | e
    · exact .inl ⟨e, .inr rfl⟩
    · exact .inr (.inl ⟨e, rfl⟩)
  case beq | bne | bgez | bgtz | blez | bltz | bgezal | bltzal | j | jal | jr =>
    obtain ⟨e, hd⟩ := unlessInDelaySlot_next_refused h
    exact .inr (.inr (.inl ⟨e, rfl, hd⟩))
  case jalr =>
    rcases execJalr_refused h with ⟨e, hd⟩ | ⟨e, hwf⟩
    · exact .inr (.inr (.inl ⟨e, rfl, hd⟩))
    · exact .inr (.inr (.inr ⟨e, hwf⟩))
  case brk | syscall => exact absurd h (raise_ne_refused _ _ s r)

/-! ### Another memory (R31) -/

theorem beside_withMem (m : Memory) : Beside (withMem m) where
  params_eq _ := rfl
  pc_eq _ := rfl
  npc_eq _ := rfl
  inDelay_eq _ := rfl
  draws_eq _ := rfl
  commit_eq _ _ _ _ := rfl
  afterDraw_eq _ := rfl
  trapState_eq _ _ _ _ := rfl

theorem apart_withMem {i : Instr} (hload : i.mnemonic.isLoad = false) (hstore : i.mnemonic.isStore = false) (m : Memory) :
    Apart (withMem m) i where
  toBeside := beside_withMem m
  readReg_eq _ _ _ := rfl
  writeReg_eq s v q _ := by unfold State.writeReg; split <;> rfl
  hi_eq _ _ := rfl
  lo_eq _ _ := rfl
  withHiLo_eq _ _ _ _ := rfl
  readByte_eq hl := absurd hl (by simp [hload])
  writeBytes_eq hs := absurd hs (by simp [hstore])

/-- Settles O49: another memory is apart from all but the loads and stores. -/
theorem onlyLoadsAndStoresReachMemory : Obligations.OnlyLoadsAndStoresReachMemory :=
  fun _ s m hload hstore => exec_apart (apart_withMem hload hstore m) s

/-! ### The bytes that no step changes (R40, R43) -/

/-- An address that no store may write: in TEXT or outside MEM_MAP. -/
def Unwritable (s : State) (a : Word) : Prop :=
  Region.anyHolds s.params.text a.toNat = true ∨ Region.anyHolds s.params.memMap a.toNat = false

/-- A store that has passed its checks ends before an unwritable address or starts after it. -/
theorem Unwritable.outside {s : State} {a ea : Word} {n : Nat} (h : Unwritable s a) (hmapped : s.mapped ea n = true)
    (htext : s.touchesText ea n = false) : n ≤ (a - ea).toNat := by
  by_contra hlt
  have hk : (a - ea).toNat < n := Nat.lt_of_not_le hlt
  have haddr : ea + BitVec.ofNat 32 (a - ea).toNat = a := by
    rw [BitVec.ofNat_toNat, BitVec.setWidth_eq, BitVec.add_comm, BitVec.sub_add_cancel]
  have hin := (mapped_iff_allMapped s ea n).1 hmapped _ hk
  have hnot := (touchesText_eq_false_iff s ea n).1 htext _ hk
  rw [haddr] at hin hnot
  rcases h with h | h
  · simp [hnot] at h
  · simp [hin] at h

theorem NextOf.readByte_eq {i : Instr} {s t : State} {a : Word} (h : NextOf i s t) (ha : Unwritable s a) :
    t.readByte a = s.readByte a := by
  cases h with
  | store ea bs mapped notText => exact readByte_writeBytes_outside s ea (ha.outside mapped notText)
  | trap | hiLo => rfl
  | register | load | transfer | transferAndLink | notTaken | linkNotTaken => exact State.readByte_congr (by simp) a

/-- Settles O55: an exception before the instruction leaves memory alone, and an instruction writes it only behind the checks
of a store. -/
theorem programTextIsImmutable : Obligations.ProgramTextIsImmutable := by
  intro s t a h ha
  rcases step_next h with ⟨v, e, info, -, rfl⟩ | ⟨i, -, -, -, -, h⟩
  · rfl
  · exact (exec_next h).readByte_eq ha

end Sys2Proof.Proofs
end

section
/-! # Words and instructions (`30_encoding.md`)

Three layers. First the canonical words: `selectRow` reads an instruction back from its canonical word, also with anything in
the constant-zero bits. Then the maps of R61 to R63 as lists, which say which mnemonic the fields `op`, `fn` and `rt` select.
Last the rows of R64: a row fits exactly the words that select its mnemonic and are 0 in its constant-zero bits. -/

namespace Sys2Proof.Proofs

open Sys2Proof.Machine

/-! ### The fields of a word under `&&&` and `|||` -/

section Fields
variable (v w : Word)

@[simp] theorem opOf_or : opOf (v ||| w) = opOf v ||| opOf w := BitVec.extractLsb'_or
@[simp] theorem rsOf_or : rsOf (v ||| w) = rsOf v ||| rsOf w := BitVec.extractLsb'_or
@[simp] theorem rtOf_or : rtOf (v ||| w) = rtOf v ||| rtOf w := BitVec.extractLsb'_or
@[simp] theorem rdOf_or : rdOf (v ||| w) = rdOf v ||| rdOf w := BitVec.extractLsb'_or
@[simp] theorem shOf_or : shOf (v ||| w) = shOf v ||| shOf w := BitVec.extractLsb'_or
@[simp] theorem fnOf_or : fnOf (v ||| w) = fnOf v ||| fnOf w := BitVec.extractLsb'_or
@[simp] theorem immOf_or : immOf (v ||| w) = immOf v ||| immOf w := BitVec.extractLsb'_or
@[simp] theorem opOf_and : opOf (v &&& w) = opOf v &&& opOf w := BitVec.extractLsb'_and
@[simp] theorem rsOf_and : rsOf (v &&& w) = rsOf v &&& rsOf w := BitVec.extractLsb'_and
@[simp] theorem rtOf_and : rtOf (v &&& w) = rtOf v &&& rtOf w := BitVec.extractLsb'_and
@[simp] theorem rdOf_and : rdOf (v &&& w) = rdOf v &&& rdOf w := BitVec.extractLsb'_and
@[simp] theorem shOf_and : shOf (v &&& w) = shOf v &&& shOf w := BitVec.extractLsb'_and
@[simp] theorem fnOf_and : fnOf (v &&& w) = fnOf v &&& fnOf w := BitVec.extractLsb'_and

end Fields

/-- Words are equal when their R-format fields are. -/
theorem word_eq_iff_fields {v w : Word} : v = w ↔ opOf v = opOf w ∧ rsOf v = rsOf w ∧ rtOf v = rtOf w ∧
    rdOf v = rdOf w ∧ shOf v = shOf w ∧ fnOf v = fnOf w := by
  refine ⟨fun h => by simp [h], fun ⟨hop, hrs, hrt, hrd, hsh, hfn⟩ => ?_⟩
  rw [word_eq_fieldsR v, word_eq_fieldsR w, hop, hrs, hrt, hrd, hsh, hfn]

theorem fields_zero : opOf 0#32 = 0#6 ∧ rsOf 0#32 = 0#5 ∧ rtOf 0#32 = 0#5 ∧ rdOf 0#32 = 0#5 ∧ shOf 0#32 = 0#5 ∧
    fnOf 0#32 = 0#6 := by decide

/-- Bits within a mask are all that is left under it. -/
theorem and_eq_self_of_within {z mask : Word} (hz : z &&& ~~~mask = 0#32) : z &&& mask = z := by
  calc z &&& mask = (z &&& mask) ||| (z &&& ~~~mask) := by rw [hz, BitVec.or_zero]
    _ = z := by rw [← BitVec.and_or_distrib_left, BitVec.or_not_self, BitVec.and_allOnes]

/-- Bits within a mask leave a field zero in which the mask has none. -/
theorem field_eq_zero_of_within {z mask : Word} (hz : z &&& ~~~mask = 0#32) {i n : Nat}
    (hmask : mask.extractLsb' i n = 0#n) : z.extractLsb' i n = 0#n := by
  rw [← and_eq_self_of_within hz, BitVec.extractLsb'_and, hmask, BitVec.and_zero]

/-! ### Canonical words -/

/-- The bits the source prints as `5'h0` (`30_encoding.md` R65), by mnemonic and field by field. -/
def zeroFieldBits : Mnemonic → Word
  | .ADDU | .AND | .NOR | .OR | .SLT | .SLTU | .SRLV | .SUB | .SUBU => wordR 0 0 0 31 0
  | .DIV | .DIVU | .MULT | .MULTU => wordR 0 0 31 31 0
  | .BGTZ | .BLEZ => wordR 0 31 0 0 0
  | .JALR => wordR 0 31 0 31 0
  | .JR | .MTHI | .MTLO => wordR 0 31 31 31 0
  | .MFHI | .MFLO => wordR 31 31 0 31 0
  | _ => 0#32

/-- The constant-zero bits are a matter of the mnemonic alone. -/
theorem constantZeroBits_eq (i : Instr) : constantZeroBits i = zeroFieldBits i.mnemonic := by cases i <;> rfl

@[simp] theorem zeroFieldBits_op (m : Mnemonic) : opOf (zeroFieldBits m) = 0#6 := by cases m <;> rfl
@[simp] theorem zeroFieldBits_fn (m : Mnemonic) : fnOf (zeroFieldBits m) = 0#6 := by cases m <;> rfl

/-- A canonical word is 0 in the constant-zero bits of its instruction. -/
theorem encode_and_constantZeroBits (i : Instr) : encode i &&& constantZeroBits i = 0#32 := by
  rw [constantZeroBits_eq, word_eq_iff_fields]
  cases i
  case addu | and | nor | or | slt | sltu | srlv | sub | subu | div | divu | mult | multu | jalr | jr | mthi | mtlo | mfhi
      | mflo | bgtz | blez =>
    simp [encode, Instr.mnemonic, zeroFieldBits, fields_zero]
  all_goals exact word_eq_iff_fields.1 BitVec.and_zero

/-- The instruction is read back from its canonical word, whatever stands in its constant-zero bits. -/
theorem selectRow_encode_or {i : Instr} {z : Word} (hz : z &&& ~~~constantZeroBits i = 0#32) :
    selectRow (encode i ||| z) = some i := by
  rw [constantZeroBits_eq] at hz
  have hop : opOf z = 0#6 := field_eq_zero_of_within hz (zeroFieldBits_op _)
  have hfn : fnOf z = 0#6 := field_eq_zero_of_within hz (zeroFieldBits_fn _)
  have hrs : rsOf (zeroFieldBits i.mnemonic) = 0#5 → rsOf z = 0#5 := field_eq_zero_of_within hz
  have hrt : rtOf (zeroFieldBits i.mnemonic) = 0#5 → rtOf z = 0#5 := field_eq_zero_of_within hz
  have hrd : rdOf (zeroFieldBits i.mnemonic) = 0#5 → rdOf z = 0#5 := field_eq_zero_of_within hz
  cases i
  case addu | and | nor | or | slt | sltu | srlv | sub | subu | div | divu | mult | multu | jalr | jr | mthi | mtlo | mfhi
      | mflo =>
    simp [encode, selectRow, decodeFunction, hop, hfn, hrs, hrt, hrd, zeroFieldBits, Instr.mnemonic]
  case bgtz | blez =>
    have himm : immOf z = 0#16 := field_eq_zero_of_within hz (by simp only [Instr.mnemonic, zeroFieldBits]; decide)
    simp [encode, selectRow, hop, hrs, himm, zeroFieldBits, Instr.mnemonic]
  all_goals
    have hz0 : z = 0#32 := (and_eq_self_of_within hz).symm.trans BitVec.and_zero
    simp [hz0, encode, selectRow, decodeFunction, decodeBranchGroup]

/-! ### Decoding a word that selects a row, and one that selects none -/

/-- A word of the row with 0 in its constant-zero bits is the instruction under either value of ZERO_FIELDS. -/
theorem isWordOf_of_selectRow {w : Word} {i : Instr} (hrow : selectRow w = some i)
    (hzero : w &&& constantZeroBits i = 0#32) : IsWordOf w i :=
  fun p hkept => (decode_eq_instr_iff p w i).2 ⟨hrow, hkept, fun _ => hzero⟩

/-- The refusal of R65. -/
theorem decode_of_nonzero_field {p : Params} {w : Word} {i : Instr} (hrow : selectRow w = some i)
    (hkept : i.mnemonic ∉ p.dropped) (hrefuse : p.zeroFields = .refuse) (hfield : w &&& constantZeroBits i ≠ 0#32) :
    decode p w = .nonzeroConstantField := by
  simp [decode, hrow, hkept, hrefuse, hfield]

/-- A word without a row is reserved under all parameters (R66). -/
theorem decode_of_no_row (p : Params) {w : Word} (hrow : selectRow w = none) : decode p w = .reserved := by
  simp [decode, hrow]

/-- While every entry is supported, a word is reserved only for want of a row (R66). -/
theorem decode_eq_reserved_iff {p : Params} (hp : p.dropped = []) (w : Word) :
    decode p w = .reserved ↔ selectRow w = none := by
  refine ⟨fun h => ?_, decode_of_no_row p⟩
  cases hrow : selectRow w with
  | none => rfl
  | some i =>
    have hkept : i.mnemonic ∉ p.dropped := by simp [hp]
    cases hz : p.zeroFields with
    | ignore => simp [decode, hrow, hkept, hz] at h
    | refuse =>
      by_cases hfield : w &&& constantZeroBits i = 0#32 <;> simp [decode, hrow, hkept, hz, hfield] at h

/-- Settles O1: a canonical word selects the row of its instruction and is 0 in its constant-zero bits. -/
theorem decodeOfEncode : Obligations.DecodeOfEncode := by
  intro i
  have hrow : selectRow (encode i ||| 0#32) = some i := selectRow_encode_or BitVec.zero_and
  rw [BitVec.or_zero] at hrow
  exact isWordOf_of_selectRow hrow (encode_and_constantZeroBits i)

/-- Settles O5: the bits set do not change the row, and they are what the check of the constant-zero fields sees. -/
theorem nonzeroConstantFields : Obligations.NonzeroConstantFields := by
  intro p i z hkept hnonzero hz
  have hrow : selectRow (encode i ||| z) = some i := selectRow_encode_or hz
  have hseen : (encode i ||| z) &&& constantZeroBits i = z := by
    rw [BitVec.and_or_distrib_right, encode_and_constantZeroBits, BitVec.zero_or, and_eq_self_of_within hz]
  refine ⟨fun hrefuse => decode_of_nonzero_field hrow hkept hrefuse (hseen.trans_ne hnonzero), fun hignore => ?_⟩
  exact (decode_eq_instr_iff p _ i).2 ⟨hrow, hkept, by simp [hignore]⟩

/-! ### The maps of R61 to R63 -/

/-- The OPCODE map without its two entries that stand for another map (`30_encoding.md` R61). -/
def opcodeEntries : List (BitVec 6 × Mnemonic) :=
  [(0b000010#6, .J), (0b000011#6, .JAL), (0b000100#6, .BEQ), (0b000101#6, .BNE), (0b000110#6, .BLEZ), (0b000111#6, .BGTZ),
    (0b001000#6, .ADDI), (0b001001#6, .ADDIU), (0b001010#6, .SLTI), (0b001011#6, .SLTIU), (0b001100#6, .ANDI),
    (0b001101#6, .ORI), (0b001110#6, .XORI), (0b001111#6, .LUI), (0b100000#6, .LB), (0b100001#6, .LH), (0b100011#6, .LW),
    (0b100100#6, .LBU), (0b100101#6, .LHU), (0b101000#6, .SB), (0b101001#6, .SH), (0b101011#6, .SW)]

/-- The branch-group map (`30_encoding.md` R63). -/
def branchGroupEntries : List (Reg × Mnemonic) :=
  [(0b00000#5, .BLTZ), (0b00001#5, .BGEZ), (0b10000#5, .BLTZAL), (0b10001#5, .BGEZAL)]

/-- The mnemonic the three maps show for the fields of a word. -/
def mnemonicAt (op fn : BitVec 6) (rt : Reg) : Option Mnemonic :=
  if op = 0#6 then functionMap.lookup fn else if op = 1#6 then branchGroupEntries.lookup rt else opcodeEntries.lookup op

theorem mnemonicAt_zero (fn : BitVec 6) (rt : Reg) : mnemonicAt 0#6 fn rt = functionMap.lookup fn := rfl

theorem mnemonicAt_one (fn : BitVec 6) (rt : Reg) : mnemonicAt 1#6 fn rt = branchGroupEntries.lookup rt := rfl

theorem mnemonicAt_other {op : BitVec 6} (h0 : op ≠ 0#6) (h1 : op ≠ 1#6) (fn : BitVec 6) (rt : Reg) :
    mnemonicAt op fn rt = opcodeEntries.lookup op := by
  rw [mnemonicAt, if_neg h0, if_neg h1]

theorem lookup_eq_none_iff_keys {n : Nat} {l : List (BitVec n × Mnemonic)} {k : BitVec n} :
    l.lookup k = none ↔ k ∉ l.map Prod.fst := by
  simp only [List.lookup_eq_none_iff, List.mem_map, bne_iff_ne]
  exact ⟨fun h ⟨e, he, hk⟩ => h e he hk.symm, fun h e he hk => h ⟨e, he, hk.symm⟩⟩

theorem mem_of_lookup_eq_some {n : Nat} {l : List (BitVec n × Mnemonic)} {k : BitVec n} {m : Mnemonic}
    (h : l.lookup k = some m) : (k, m) ∈ l := by
  obtain ⟨l₁, l₂, rfl, -⟩ := List.lookup_eq_some_iff.1 h
  simp

theorem decodeFunction_mnemonic (w : Word) : (decodeFunction w).map Instr.mnemonic = functionMap.lookup (fnOf w) := by
  unfold decodeFunction
  split
  case h_29 => exact (lookup_eq_none_iff_keys.2 (by simp_all [functionMap])).symm
  all_goals
    simp only [*]
    rfl

theorem decodeBranchGroup_mnemonic (w : Word) :
    (decodeBranchGroup w).map Instr.mnemonic = branchGroupEntries.lookup (rtOf w) := by
  unfold decodeBranchGroup
  split
  case h_5 => exact (lookup_eq_none_iff_keys.2 (by simp_all [branchGroupEntries])).symm
  all_goals
    simp only [*]
    rfl

/-- A word selects the mnemonic the maps show. -/
theorem selectRow_mnemonic (w : Word) : (selectRow w).map Instr.mnemonic = mnemonicAt (opOf w) (fnOf w) (rtOf w) := by
  unfold selectRow
  split
  case h_1 h => rw [h, decodeFunction_mnemonic, mnemonicAt_zero]
  case h_2 h => rw [h, decodeBranchGroup_mnemonic, mnemonicAt_one]
  case h_25 =>
    rw [mnemonicAt_other ‹opOf w ≠ 0#6› ‹opOf w ≠ 1#6›]
    exact (lookup_eq_none_iff_keys.2 (by simp_all [opcodeEntries])).symm
  all_goals
    simp only [*]
    rfl

theorem selectRow_eq_none_iff (w : Word) : selectRow w = none ↔ mnemonicAt (opOf w) (fnOf w) (rtOf w) = none := by
  rw [← selectRow_mnemonic, Option.map_eq_none_iff]

/-- Settles O4: a word is reserved where its map shows no mnemonic, and the fields of each map are few enough to try all. -/
theorem reservedWordsAreThoseOfTheMaps : Obligations.ReservedWordsAreThoseOfTheMaps := by
  intro p w hp
  rw [decode_eq_reserved_iff hp, selectRow_eq_none_iff]
  generalize opOf w = op, fnOf w = fn, rtOf w = rt
  have h01 : 0#6 ≠ 1#6 := by decide
  by_cases h0 : op = 0#6
  · subst h0
    simp only [mnemonicAt_zero, true_and, h01, false_and, or_false]
    revert fn
    decide
  by_cases h1 : op = 1#6
  · subst h1
    simp only [mnemonicAt_one, true_and, h0, false_and, false_or]
    revert rt
    decide
  · simp only [mnemonicAt_other h0 h1, h0, h1, false_and, or_false]
    revert op
    decide

/-! ### The function map, the branch-group map, and the word 0 -/

/-- The word of an entry of the function map whose other fields are all 0. -/
theorem functionMap_entry_isWordOf {f : BitVec 6} {m : Mnemonic} (h : (f, m) ∈ functionMap) :
    ∃ i : Instr, i.mnemonic = m ∧ IsWordOf (wordR 0 0 0 0 f) i := by
  have hentry : ∀ e ∈ functionMap, functionMap.lookup e.1 = some e.2 ∧ wordR 0 0 0 0 e.1 &&& zeroFieldBits e.2 = 0#32 := by
    decide
  obtain ⟨hlookup, hzero⟩ := hentry _ h
  have hrow : (selectRow (wordR 0 0 0 0 f)).map Instr.mnemonic = some m := by
    rw [selectRow_mnemonic, opOf_wordR, fnOf_wordR, mnemonicAt_zero, hlookup]
  obtain ⟨i, hi, rfl⟩ := Option.map_eq_some_iff.1 hrow
  exact ⟨i, rfl, isWordOf_of_selectRow hi (by rw [constantZeroBits_eq, hzero])⟩

/-- Settles O59: under `op = 0` the row a word selects is the map's entry for its `fn`, and the `-` of the map are its absent
keys. -/
theorem functionMapOfOpZero : Obligations.FunctionMapOfOpZero := by
  refine ⟨fun p w hop => ?_, fun f m h => ?_⟩
  · have hmap := selectRow_mnemonic w
    rw [hop, mnemonicAt_zero] at hmap
    refine ⟨fun i hdec => ?_, fun hfn => ?_⟩
    · obtain ⟨hrow, -, -⟩ := (decode_eq_instr_iff p w i).1 hdec
      exact mem_of_lookup_eq_some (by rw [← hmap, hrow, Option.map_some])
    · rw [lookup_eq_none_iff_keys.2 hfn] at hmap
      exact decode_of_no_row p (Option.map_eq_none_iff.1 hmap)
  · obtain ⟨i, hi, hword⟩ := functionMap_entry_isWordOf h
    exact ⟨_, i, opOf_wordR .., fnOf_wordR .., hi, hword⟩

/-- Settles O60: the four words are the canonical ones, and another `rt` is no key of the branch-group map. -/
theorem branchGroupMap : Obligations.BranchGroupMap := by
  refine fun rs rt imm => ⟨decodeOfEncode (.bltz rs imm), decodeOfEncode (.bgez rs imm), decodeOfEncode (.bltzal rs imm),
    decodeOfEncode (.bgezal rs imm), fun hrt p => decode_of_no_row p ?_⟩
  rw [selectRow_eq_none_iff, opOf_wordI, rtOf_wordI, mnemonicAt_one]
  exact lookup_eq_none_iff_keys.2 hrt

/-- Settles O47: 0 is the canonical word of SLL with all operands 0, and a write to register 0 leaves the state as it was. -/
theorem theZeroWordChangesOnlyTheCounters : Obligations.TheZeroWordChangesOnlyTheCounters := by
  refine ⟨decodeOfEncode (.sll 0#5 0#5 0#5), fun s => ⟨s.advance, ?_, ?_⟩⟩
  · rfl
  · exact ⟨fun r => rfl, ⟨rfl, rfl⟩, fun a => rfl, ⟨rfl, rfl, rfl, rfl⟩, rfl, rfl, rfl⟩

/-! ### The rows of the opcode table (R64) -/

/-- The bits by which the maps tell rows apart: `op` always, `fn` under `op = 0`, `rt` under `op = 1` (R61). -/
def selectorMask (op : BitVec 6) : Word :=
  if op = 0#6 then 0xFC00003F#32 else if op = 1#6 then 0xFC1F0000#32 else 0xFC000000#32

/-- The words agree in the fields by which the maps select. -/
def SameSelectors (v w : Word) : Prop :=
  opOf w = opOf v ∧ (opOf v = 0#6 → fnOf w = fnOf v) ∧ (opOf v = 1#6 → rtOf w = rtOf v)

theorem selectorMask_fields : ∀ op : BitVec 6,
    opOf (selectorMask op) = 63#6 ∧ rsOf (selectorMask op) = 0#5 ∧
    rtOf (selectorMask op) = (if op = 1#6 then 31#5 else 0#5) ∧ rdOf (selectorMask op) = 0#5 ∧
    shOf (selectorMask op) = 0#5 ∧ fnOf (selectorMask op) = (if op = 0#6 then 63#6 else 0#6) := by decide

/-- Words are alike under the selector mask exactly when the maps look at the same values in both. -/
theorem and_selectorMask_eq_iff (v w : Word) :
    w &&& selectorMask (opOf v) = v &&& selectorMask (opOf v) ↔ SameSelectors v w := by
  have all6 (x : BitVec 6) : x &&& 63#6 = x := BitVec.and_allOnes
  have all5 (x : Reg) : x &&& 31#5 = x := BitVec.and_allOnes
  rw [word_eq_iff_fields, SameSelectors]
  by_cases h0 : opOf v = 0#6
  · simp [selectorMask_fields, h0, all6]
  by_cases h1 : opOf v = 1#6
  · simp [selectorMask_fields, h1, all6, all5]
  · simp [selectorMask_fields, h0, h1, all6]

theorem mnemonicAt_congr {v w : Word} (h : SameSelectors v w) :
    mnemonicAt (opOf w) (fnOf w) (rtOf w) = mnemonicAt (opOf v) (fnOf v) (rtOf v) := by
  obtain ⟨hop, hfn, hrt⟩ := h
  rw [hop]
  by_cases h0 : opOf v = 0#6
  · rw [hfn h0, h0, mnemonicAt_zero, mnemonicAt_zero]
  by_cases h1 : opOf v = 1#6
  · rw [hrt h1, h1, mnemonicAt_one, mnemonicAt_one]
  · rw [mnemonicAt_other h0 h1, mnemonicAt_other h0 h1]

/-- A row's mask is the selector of its OPCODE and its constant-zero bits. -/
theorem opcodeRows_mask : ∀ r ∈ opcodeRows, r.mask = selectorMask (opOf r.bits) ||| zeroFieldBits r.mnemonic := by decide

/-- A row's bits lie within the selector and are 0 in the constant-zero bits. -/
theorem opcodeRows_bits : ∀ r ∈ opcodeRows,
    r.bits &&& selectorMask (opOf r.bits) = r.bits ∧ r.bits &&& zeroFieldBits r.mnemonic = 0#32 := by decide

/-- The bits of a row stand where the maps show its mnemonic. -/
theorem opcodeRows_mapped : ∀ r ∈ opcodeRows, mnemonicAt (opOf r.bits) (fnOf r.bits) (rtOf r.bits) = some r.mnemonic := by
  decide

/-- The maps show the mnemonic of a row nowhere but at its bits. -/
theorem opcodeRows_mapped_once : ∀ r ∈ opcodeRows,
    (∀ e ∈ functionMap, e.2 = r.mnemonic → 0#6 = opOf r.bits ∧ e.1 = fnOf r.bits) ∧
    (∀ e ∈ branchGroupEntries, e.2 = r.mnemonic → 1#6 = opOf r.bits ∧ e.1 = rtOf r.bits) ∧
    (∀ e ∈ opcodeEntries, e.2 = r.mnemonic → e.1 = opOf r.bits) := by decide

/-- A word selects the mnemonic of a row exactly when its selecting fields are those of the row's bits. -/
theorem mnemonicAt_eq_some_iff {r : OpcodeRow} (hr : r ∈ opcodeRows) (w : Word) :
    mnemonicAt (opOf w) (fnOf w) (rtOf w) = some r.mnemonic ↔ SameSelectors r.bits w := by
  refine ⟨fun h => ?_, fun h => (mnemonicAt_congr h).trans (opcodeRows_mapped r hr)⟩
  obtain ⟨hfunction, hbranch, hopcode⟩ := opcodeRows_mapped_once r hr
  by_cases h0 : opOf w = 0#6
  · rw [h0, mnemonicAt_zero] at h
    obtain ⟨hop, hfn⟩ := hfunction _ (mem_of_lookup_eq_some h) rfl
    exact ⟨h0.trans hop, fun _ => hfn, fun hone => absurd (hop.trans hone) (by decide)⟩
  by_cases h1 : opOf w = 1#6
  · rw [h1, mnemonicAt_one] at h
    obtain ⟨hop, hrt⟩ := hbranch _ (mem_of_lookup_eq_some h) rfl
    exact ⟨h1.trans hop, fun hzero => absurd (hop.trans hzero) (by decide), fun _ => hrt⟩
  · rw [mnemonicAt_other h0 h1] at h
    have hop : opOf w = opOf r.bits := hopcode _ (mem_of_lookup_eq_some h) rfl
    exact ⟨hop, fun hzero => absurd (hop.trans hzero) h0, fun hone => absurd (hop.trans hone) h1⟩

/-- A test under a joined mask is a test under each part. -/
theorem and_or_eq_iff {w a b bits : Word} (ha : bits &&& a = bits) (hb : bits &&& b = 0#32) :
    w &&& (a ||| b) = bits ↔ w &&& a = bits ∧ w &&& b = 0#32 := by
  refine ⟨fun h => ⟨?_, ?_⟩, fun ⟨hwa, hwb⟩ => by rw [BitVec.and_or_distrib_left, hwa, hwb, BitVec.or_zero]⟩
  · calc w &&& a = w &&& (a ||| b) &&& a := by ext; grind
      _ = bits := by rw [h, ha]
  · calc w &&& b = w &&& (a ||| b) &&& b := by ext; grind
      _ = 0#32 := by rw [h, hb]

/-- A row fits exactly the words that select its mnemonic and are 0 in its constant-zero fields. -/
theorem fits_iff {r : OpcodeRow} (hr : r ∈ opcodeRows) (w : Word) :
    r.fits w = true ↔ (selectRow w).map Instr.mnemonic = some r.mnemonic ∧ w &&& zeroFieldBits r.mnemonic = 0#32 := by
  obtain ⟨hselector, hzero⟩ := opcodeRows_bits r hr
  have hsame := and_selectorMask_eq_iff r.bits w
  rw [hselector] at hsame
  rw [selectRow_mnemonic, mnemonicAt_eq_some_iff hr, ← hsame, ← and_or_eq_iff hselector hzero, ← opcodeRows_mask r hr]
  exact beq_iff_eq

theorem exists_row (m : Mnemonic) : ∃ r ∈ opcodeRows, r.mnemonic = m := by cases m <;> decide

theorem opcodeRows_mnemonic_inj {q r : OpcodeRow} (hq : q ∈ opcodeRows) (hr : r ∈ opcodeRows)
    (h : q.mnemonic = r.mnemonic) : q = r :=
  List.inj_on_of_nodup_map (by decide : (opcodeRows.map OpcodeRow.mnemonic).Nodup) hq hr h

/-- Settles O3: a word selects one mnemonic, and no two rows share one. -/
theorem noWordFitsTwoRows : Obligations.NoWordFitsTwoRows := by
  intro w q hq r hr hqw hrw
  obtain ⟨hqrow, -⟩ := (fits_iff hq w).1 hqw
  obtain ⟨hrrow, -⟩ := (fits_iff hr w).1 hrw
  exact opcodeRows_mnemonic_inj hq hr (Option.some.inj (hqrow.symm.trans hrrow))

/-- Settles O2: `fits_iff` is what decoding checks when every entry is supported and ZERO_FIELDS is refuse. -/
theorem decodingFollowsOpcodeRows : Obligations.DecodingFollowsOpcodeRows := by
  intro p w hrefuse hp
  refine ⟨fun i hdec => ?_, fun r hr hfits => ?_⟩
  · obtain ⟨hrow, -, hzero⟩ := (decode_eq_instr_iff p w i).1 hdec
    obtain ⟨r, hr, hri⟩ := exists_row i.mnemonic
    refine ⟨r, hr, hri, (fits_iff hr w).2 ⟨by rw [hrow, hri, Option.map_some], ?_⟩⟩
    rw [hri, ← constantZeroBits_eq, hzero hrefuse]
  · obtain ⟨hrow, hzero⟩ := (fits_iff hr w).1 hfits
    obtain ⟨i, hi, hir⟩ := Option.map_eq_some_iff.1 hrow
    rw [← hir, ← constantZeroBits_eq] at hzero
    exact ⟨i, isWordOf_of_selectRow hi hzero p (by simp [hp]), hir⟩

end Sys2Proof.Proofs
end

section
/-! # Arithmetic, logic, comparison (`40_arith_logic.md`)

All eighteen instructions are one of two shared forms: `writeAndAdvance`, which `setsReg_of_exec` turns into the words of the
statements, and `writeUnlessOverflow`, for which `trapping_form` does. What is left of an obligation is an equation between the
value the model writes and the value its rule states. -/

namespace Sys2Proof.Proofs

open Sys2Proof.Machine

/-! ### The two shared forms (R100, R102) -/

section Forms

variable {i : Instr} {s t : State} {r : Reg} {v w : Word}

/-- An instruction that writes the model's value `w`, where its rule states the value `v`. -/
theorem setsReg_of_exec (h : exec i s = writeAndAdvance s r w) (hw : w = v) : SetsReg i s r v := by
  subst hw
  refine ⟨(s.writeReg r w).advance, h, fun q => ?_, ⟨?_, ?_⟩, fun a => ?_, ⟨?_, ?_, rfl, rfl⟩, ?_, ?_, ?_⟩
  · rw [State.readReg_advance, State.readReg_writeReg]
  all_goals simp

/-- An instruction that writes unless its result overflowed, where `P` says when that is. -/
theorem trapping_form {o : Bool} {P : Prop} (h : exec i s = writeUnlessOverflow s o r v) (ho : o = true ↔ P) :
    (¬ P → SetsReg i s r v) ∧ (P → Raises (exec i s) s .overflow s.pc) := by
  rcases writeUnlessOverflow_cases s o r v with ⟨htrue, e⟩ | ⟨hfalse, e⟩
  · have hP : P := ho.1 htrue
    exact ⟨absurd hP, fun _ => by rw [h, e]; exact raises_raise .overflow s.pc s⟩
  · have hP : ¬ P := fun p => by simp [ho.2 p] at hfalse
    exact ⟨fun _ => setsReg_of_exec (h.trans e) rfl, fun p => absurd p hP⟩

/-- Without a trap vector the trapping form answers a next state only by writing, as the wrapping form does. -/
theorem writeAndAdvance_of_writeUnlessOverflow {o : Bool} (hv : s.params.trapVector = none)
    (h : writeUnlessOverflow s o r v = .next t) : writeAndAdvance s r v = .next t := by
  rcases writeUnlessOverflow_cases s o r v with ⟨-, e⟩ | ⟨-, e⟩
  · obtain ⟨vector, hvector, -⟩ := raise_next (e.symm.trans h)
    simp [hv] at hvector
  · exact e.symm.trans h

end Forms

/-! ### Words with ignored fields (R67) -/

/-- A row without constant-zero fields looks at nothing but what selects it. -/
theorem isWordOf_of_no_zero_fields {w : Word} {i : Instr} (hrow : selectRow w = some i)
    (hnone : constantZeroBits i = 0#32) : IsWordOf w i :=
  isWordOf_of_selectRow hrow (by rw [hnone, BitVec.and_zero])

theorem isWordOf_add (rd rs rt : Reg) (sh : Shamt) : IsWordOf (wordR rs rt rd sh 0b100000#6) (.add rd rs rt) :=
  isWordOf_of_no_zero_fields (by simp [selectRow, decodeFunction]) rfl

theorem isWordOf_xor (rd rs rt : Reg) (sh : Shamt) : IsWordOf (wordR rs rt rd sh 0b100110#6) (.xor rd rs rt) :=
  isWordOf_of_no_zero_fields (by simp [selectRow, decodeFunction]) rfl

theorem isWordOf_lui (rt ignored : Reg) (imm : Imm16) : IsWordOf (wordI 0b001111#6 ignored rt imm) (.lui rt imm) :=
  isWordOf_of_no_zero_fields (by simp [selectRow]) rfl

/-! ### Overflow (R101, R102) -/

/-- The model's range test is the library's, which has the range's upper end as a strict bound. -/
theorem addOverflows_eq (a b : Word) : addOverflows a b = a.saddOverflow b := by
  rw [Bool.eq_iff_iff]
  simp only [addOverflows, outsideSigned32, BitVec.saddOverflow, Bool.or_eq_true, decide_eq_true_eq]
  omega

theorem subOverflows_eq (a b : Word) : subOverflows a b = a.ssubOverflow b := by
  rw [Bool.eq_iff_iff]
  simp only [subOverflows, outsideSigned32, BitVec.ssubOverflow, Bool.or_eq_true, decide_eq_true_eq]
  omega

theorem addOverflows_iff (a b : Word) : addOverflows a b = true ↔ a.msb = b.msb ∧ (a + b).msb ≠ a.msb := by
  rw [addOverflows_eq, BitVec.saddOverflow_eq]
  simp

/-- Unlike signs leave two cases, and in each the sign of the difference is compared with a known one. -/
theorem subOverflows_iff (a b : Word) : subOverflows a b = true ↔ a.msb ≠ b.msb ∧ (a - b).msb ≠ a.msb := by
  rw [subOverflows_eq, BitVec.ssubOverflow_eq]
  cases a.msb <;> cases b.msb <;> simp

/-- Settles O14: each half is the library's sign-bit form of the model's range test. -/
theorem overflowIsReadOffTheSigns : Obligations.OverflowIsReadOffTheSigns :=
  fun a b => ⟨addOverflows_iff a b, subOverflows_iff a b⟩

/-- Settles O10: both are trapping forms whose overflow condition is read off the signs. -/
theorem addAndSubRaiseOnOverflow : Obligations.AddAndSubRaiseOnOverflow := by
  rintro s rd rs rt sh a b rfl rfl
  obtain ⟨addWrites, addRaises⟩ :=
    trapping_form (i := .add rd rs rt) (s := s) rfl (addOverflows_iff (s.readReg rs) (s.readReg rt))
  obtain ⟨subWrites, subRaises⟩ :=
    trapping_form (i := .sub rd rs rt) (s := s) rfl (subOverflows_iff (s.readReg rs) (s.readReg rt))
  exact ⟨isWordOf_add rd rs rt sh, decodeOfEncode (.sub rd rs rt), addWrites, addRaises, subWrites, subRaises⟩

/-- Settles O11: the trapping form with the sign-extended immediate as second operand. -/
theorem addiRaisesOnOverflow : Obligations.AddiRaisesOnOverflow := by
  rintro s rt rs imm a b rfl rfl
  exact ⟨decodeOfEncode (.addi rt rs imm), trapping_form rfl (addOverflows_iff (s.readReg rs) (sext16 imm))⟩

/-! ### Sums and differences modulo 2^32 -/

/-- The immediate of ADDIU and SLTIU in the words of R57. -/
theorem immU_eq (p : Params) (imm : Imm16) :
    immU p imm = if p.immExtU = .sign then imm.signExtend 32 else imm.zeroExtend 32 := by
  unfold immU
  cases p.immExtU <;> rfl

theorem add_eq_ofNat (a b : Word) : a + b = BitVec.ofNat 32 (a.toNat + b.toNat) := by
  rw [BitVec.ofNat_add, BitVec.ofNat_toNat, BitVec.ofNat_toNat, BitVec.setWidth_eq, BitVec.setWidth_eq]

theorem sub_eq_ofInt (a b : Word) : a - b = BitVec.ofInt 32 (a.toNat - b.toNat) := by
  rw [Int.sub_eq_add_neg, BitVec.ofInt_add, BitVec.ofInt_neg, BitVec.ofInt_natCast, BitVec.ofInt_natCast,
    BitVec.ofNat_toNat, BitVec.ofNat_toNat, BitVec.setWidth_eq, BitVec.setWidth_eq, BitVec.sub_eq_add_neg]

/-- Settles O12: word arithmetic is exact arithmetic modulo 2^32. -/
theorem adduAndSubuWrap : Obligations.AdduAndSubuWrap := fun _ rd rs rt =>
  ⟨decodeOfEncode (.addu rd rs rt), decodeOfEncode (.subu rd rs rt),
    setsReg_of_exec rfl (add_eq_ofNat _ _), setsReg_of_exec rfl (sub_eq_ofInt _ _)⟩

/-- Settles O13: each wrapping form writes the trapping form's value, once its operand is the same sign-extended immediate. -/
theorem trappingAndWrappingSumsAgree : Obligations.TrappingAndWrappingSumsAgree := by
  intro s r rs rt imm t hv hsign
  have himm : immU s.params imm = sext16 imm := by rw [immU_eq, if_pos hsign, sext16]
  have haddiu : exec (.addiu r rs imm) s = writeAndAdvance s r (s.readReg rs + sext16 imm) := by rw [← himm]; rfl
  refine ⟨writeAndAdvance_of_writeUnlessOverflow hv, writeAndAdvance_of_writeUnlessOverflow hv, fun h => ?_, fun hrt => ?_⟩
  · exact haddiu.trans (writeAndAdvance_of_writeUnlessOverflow hv h)
  · rw [haddiu, sext16, ← hrt]
    rfl

/-! ### Comparisons (R103) -/

theorem truthWord_lessUnsigned (a b : Word) : truthWord (lessUnsigned a b) = if a.ult b then 1#32 else 0#32 := rfl

theorem truthWord_lessSigned (a b : Word) : truthWord (lessSigned a b) = if a.slt b then 1#32 else 0#32 := rfl

/-- Sign extension keeps the value that a signed comparison looks at. -/
theorem truthWord_lessSigned_sext16 (a : Word) (imm : Imm16) :
    truthWord (lessSigned a (sext16 imm)) = if a.toInt < imm.toInt then 1#32 else 0#32 := by
  have hvalue : (sext16 imm).toInt = imm.toInt := BitVec.toInt_signExtend_of_le (by decide)
  simp [truthWord, lessSigned, hvalue]

/-- Settles O15: `b` is the operand `immU`, under either value of IMM_EXT_U. -/
theorem addiuAndSltiu : Obligations.AddiuAndSltiu := by
  intro s rt rs imm b hb
  rw [← immU_eq] at hb
  subst hb
  exact ⟨decodeOfEncode (.addiu rt rs imm), decodeOfEncode (.sltiu rt rs imm),
    setsReg_of_exec rfl (add_eq_ofNat _ _), setsReg_of_exec rfl (truthWord_lessUnsigned _ _)⟩

/-- Settles O19: each comparison is the model's, written as a truth word. -/
theorem setOnLessThan : Obligations.SetOnLessThan := fun _ rd rs rt imm =>
  ⟨decodeOfEncode (.slt rd rs rt), decodeOfEncode (.slti rt rs imm), decodeOfEncode (.sltu rd rs rt),
    setsReg_of_exec rfl (truthWord_lessSigned _ _),
    setsReg_of_exec rfl (truthWord_lessSigned_sext16 _ imm),
    setsReg_of_exec rfl (truthWord_lessUnsigned _ _)⟩

/-! ### Bits and half words -/

/-- Settles O16: the values are the words' own bitwise operations, which act on each bit alone. -/
theorem bitwiseRegisterForms : Obligations.BitwiseRegisterForms := by
  intro s rd rs rt sh
  refine ⟨decodeOfEncode (.and rd rs rt), decodeOfEncode (.or rd rs rt), decodeOfEncode (.nor rd rs rt),
    isWordOf_xor rd rs rt sh, s.readReg rs &&& s.readReg rt, s.readReg rs ||| s.readReg rt,
    ~~~(s.readReg rs ||| s.readReg rt), s.readReg rs ^^^ s.readReg rt,
    setsReg_of_exec rfl rfl, setsReg_of_exec rfl rfl, setsReg_of_exec rfl rfl, setsReg_of_exec rfl rfl,
    fun k hk => ⟨?_, ?_, ?_, ?_⟩⟩
  · exact BitVec.getLsbD_and
  · exact BitVec.getLsbD_or
  · simp [hk]
  · rw [BitVec.getLsbD_xor, Bool.bne_eq_xor]

/-- Zero extension puts a zero half word above the immediate (R56). -/
theorem zext16_eq_append (imm : Imm16) : zext16 imm = 0#16 ++ imm := by
  simp [zext16, BitVec.setWidth_eq_append]

/-- Settles O17: the extended immediate is 0 ++ imm, and a bitwise operation acts on each half word alone. -/
theorem bitwiseImmediateForms : Obligations.BitwiseImmediateForms := by
  intro s rt rs imm hi lo hrs
  have hand : s.readReg rs &&& zext16 imm = 0#16 ++ (lo &&& imm) := by
    rw [hrs, zext16_eq_append, BitVec.and_append, BitVec.and_zero]
  have hor : s.readReg rs ||| zext16 imm = hi ++ (lo ||| imm) := by
    rw [hrs, zext16_eq_append, BitVec.or_append, BitVec.or_zero]
  have hxor : s.readReg rs ^^^ zext16 imm = hi ++ (lo ^^^ imm) := by
    rw [hrs, zext16_eq_append, BitVec.xor_append, BitVec.xor_zero]
  exact ⟨decodeOfEncode (.andi rt rs imm), decodeOfEncode (.ori rt rs imm), decodeOfEncode (.xori rt rs imm),
    setsReg_of_exec rfl hand, setsReg_of_exec rfl hor, setsReg_of_exec rfl hxor⟩

/-- A half word above zeros is its multiple of 2^16. -/
theorem upperImm_eq (imm : Imm16) : upperImm imm = BitVec.ofNat 32 (imm.toNat * 65536) := by
  have hfits : imm.toNat * 65536 < 2 ^ 32 := by omega
  apply BitVec.eq_of_toNat_eq
  rw [BitVec.toNat_ofNat, Nat.mod_eq_of_lt hfits, upperImm, BitVec.toNat_append, BitVec.toNat_ofNat, Nat.zero_mod,
    Nat.or_zero, Nat.shiftLeft_eq]

/-- Settles O18: the Source field is not looked at, and the value is `upperImm_eq`. -/
theorem luiLoadsTheUpperHalf : Obligations.LuiLoadsTheUpperHalf := fun _ rt ignored imm =>
  ⟨isWordOf_lui rt ignored imm, setsReg_of_exec rfl (upperImm_eq imm)⟩

end Sys2Proof.Proofs
end

section
/-! # Shifts (`41_shift.md`)

All six shifts are the form `writeAndAdvance`. What their rules state as multiplication and rounded division by a power of two
is proved once for each kind of shift, at every count, and serves the constant and the register form alike. -/

namespace Sys2Proof.Proofs

open Sys2Proof.Machine

/-! ### Words with ignored fields (R67) -/

theorem isWordOf_sll (rd rt ignored : Reg) (sh : Shamt) :
    IsWordOf (wordR ignored rt rd sh 0b000000#6) (.sll rd rt sh) :=
  isWordOf_of_no_zero_fields (by simp [selectRow, decodeFunction]) rfl

theorem isWordOf_srl (rd rt ignored : Reg) (sh : Shamt) :
    IsWordOf (wordR ignored rt rd sh 0b000010#6) (.srl rd rt sh) :=
  isWordOf_of_no_zero_fields (by simp [selectRow, decodeFunction]) rfl

theorem isWordOf_sra (rd rt ignored : Reg) (sh : Shamt) :
    IsWordOf (wordR ignored rt rd sh 0b000011#6) (.sra rd rt sh) :=
  isWordOf_of_no_zero_fields (by simp [selectRow, decodeFunction]) rfl

theorem isWordOf_sllv (rd rt rs : Reg) (sh : Shamt) : IsWordOf (wordR rs rt rd sh 0b000100#6) (.sllv rd rt rs) :=
  isWordOf_of_no_zero_fields (by simp [selectRow, decodeFunction]) rfl

theorem isWordOf_srav (rd rt rs : Reg) (sh : Shamt) : IsWordOf (wordR rs rt rd sh 0b000111#6) (.srav rd rt rs) :=
  isWordOf_of_no_zero_fields (by simp [selectRow, decodeFunction]) rfl

/-! ### Shifts as arithmetic (R131 to R136) -/

/-- The bits shifted out are the multiples of 2^32. -/
theorem shiftLeft_eq_ofNat (a : Word) (k : Nat) : a <<< k = BitVec.ofNat 32 (a.toNat * 2 ^ k) := by
  apply BitVec.eq_of_toNat_eq
  rw [BitVec.toNat_shiftLeft, BitVec.toNat_ofNat, Nat.shiftLeft_eq]

/-- The quotient needs no reduction: it is no greater than the word. -/
theorem ushiftRight_eq_ofNat (a : Word) (k : Nat) : a >>> k = BitVec.ofNat 32 (a.toNat / 2 ^ k) := by
  have hfits : a.toNat / 2 ^ k < 2 ^ 32 := (Nat.div_le_self _ _).trans_lt a.isLt
  apply BitVec.eq_of_toNat_eq
  rw [BitVec.toNat_ushiftRight, BitVec.toNat_ofNat, Nat.mod_eq_of_lt hfits, Nat.shiftRight_eq_div_pow]

/-- Copies of the sign bit round the quotient towards minus infinity. -/
theorem sshiftRight_eq_ofInt (a : Word) (k : Nat) : a.sshiftRight k = BitVec.ofInt 32 (a.toInt / 2 ^ k) := by
  rw [BitVec.sshiftRight, Int.shiftRight_eq_div_pow, Nat.cast_pow, Nat.cast_ofNat]

/-- The low five bits are the remainder by 32 (R130, decision D13). -/
theorem shiftCount_eq (v : Word) : shiftCount v = v.toNat % 32 := by
  rw [shiftCount, BitVec.extractLsb'_toNat, Nat.shiftRight_zero]

/-- Settles O20: each shift writes the product or quotient by 2^sh, and its Source field is not looked at. -/
theorem shiftsByConstant : Obligations.ShiftsByConstant := fun _ rd rt ignored sh =>
  ⟨isWordOf_sll rd rt ignored sh, isWordOf_srl rd rt ignored sh, isWordOf_sra rd rt ignored sh,
    setsReg_of_exec rfl (shiftLeft_eq_ofNat _ _), setsReg_of_exec rfl (ushiftRight_eq_ofNat _ _),
    setsReg_of_exec rfl (sshiftRight_eq_ofInt _ _)⟩

/-- Settles O21: `n` is the model's `shiftCount`, and the values are those of the constant shifts at that count. -/
theorem shiftsByRegister : Obligations.ShiftsByRegister := by
  intro s rd rt rs sh n hn
  rw [← shiftCount_eq] at hn
  subst hn
  exact ⟨isWordOf_sllv rd rt rs sh, decodeOfEncode (.srlv rd rt rs), isWordOf_srav rd rt rs sh,
    setsReg_of_exec rfl (shiftLeft_eq_ofNat _ _), setsReg_of_exec rfl (ushiftRight_eq_ofNat _ _),
    setsReg_of_exec rfl (sshiftRight_eq_ofInt _ _)⟩

end Sys2Proof.Proofs
end

section
/-! # Multiply, divide, HI and LO (`42_muldiv.md`)

All but the two moves from HI and LO are the form `writeHiLo`, after no draw, one or two, which
`setsHiLo_of_exec` turns into the words of the statements. The values are those of the library's word division (`sdiv`, `srem`,
`/`, `%`) and the two halves of a product that fits in 64 bits. -/

namespace Sys2Proof.Proofs

open Sys2Proof.Machine

/-! ### The shared forms (R140, R141) -/

section Forms

variable {i : Instr} {s : State} {hi lo : Word}

/-- An instruction that writes HI and LO after `n` draws. -/
theorem setsHiLo_of_exec {n : Nat} (h : exec i s = writeHiLo { s with draws := s.draws + n } hi lo) :
    SetsHiLo i s hi lo n :=
  ⟨_, h, fun _ => rfl, rfl, rfl, fun _ => rfl, ⟨rfl, rfl, rfl, rfl⟩, rfl, rfl, rfl⟩

/-- An instruction that leaves HI and LO to two draws. -/
theorem setsHiLo_of_drawHiLo (h : exec i s = drawHiLo s) :
    SetsHiLo i s (Config.anyWord (s.draws + 1)) (Config.anyWord s.draws) 2 :=
  setsHiLo_of_exec (n := 2) h

/-- The two halves of a double word make it up. -/
theorem upper_append_lower (p : BitVec 64) : p.extractLsb' 32 32 ++ p.extractLsb' 0 32 = p :=
  BitVec.extractLsb'_append_extractLsb'_eq_extractLsb' rfl |>.trans BitVec.extractLsb'_eq_self

/-- An instruction that writes a product: its halves, or a draw in place of the upper half, as MULT_HI says. -/
theorem setsHiLo_of_writeProduct {p : BitVec 64} (h : exec i s = writeProduct s p) :
    ∃ hi lo : Word, hi ++ lo = p ∧ SetsHiLo i s (if s.params.multHi = .upper then hi else Config.anyWord s.draws) lo
      (if s.params.multHi = .upper then 0 else 1) := by
  refine ⟨p.extractLsb' 32 32, p.extractLsb' 0 32, upper_append_lower p, ?_⟩
  rcases writeProduct_cases s p with ⟨hupper, e⟩ | ⟨hany, e⟩
  · simp only [hupper, if_true]
    exact setsHiLo_of_exec (n := 0) (h.trans e)
  · simp only [hany, reduceCtorEq, if_false]
    exact setsHiLo_of_exec (n := 1) (h.trans e)

end Forms

/-! ### Moves (R145 to R148) -/

theorem setsHiLo_mthi (s : State) (rs : Reg) : SetsHiLo (.mthi rs) s (s.readReg rs) s.lo 0 := setsHiLo_of_exec rfl

theorem setsHiLo_mtlo (s : State) (rs : Reg) : SetsHiLo (.mtlo rs) s s.hi (s.readReg rs) 0 := setsHiLo_of_exec rfl

/-- Settles O22: two register writes and two writes of HI and LO, one of which keeps its value. -/
theorem hiLoMoves : Obligations.HiLoMoves := fun s rd rs =>
  ⟨decodeOfEncode (.mfhi rd), decodeOfEncode (.mflo rd), decodeOfEncode (.mthi rs), decodeOfEncode (.mtlo rs),
    setsReg_of_exec rfl rfl, setsReg_of_exec rfl rfl, setsHiLo_mthi s rs, setsHiLo_mtlo s rs⟩

/-- Settles O58: the clauses of the two moves about HI, LO and the general registers. -/
theorem mthiAndMtloWriteOneRegister : Obligations.MthiAndMtloWriteOneRegister := by
  intro s rs
  obtain ⟨t, hexecHi, hregsHi, hhiHi, hloHi, -⟩ := setsHiLo_mthi s rs
  obtain ⟨u, hexecLo, hregsLo, hhiLo, hloLo, -⟩ := setsHiLo_mtlo s rs
  exact ⟨decodeOfEncode (.mthi rs), decodeOfEncode (.mtlo rs), ⟨t, hexecHi, hhiHi, hloHi, hregsHi⟩,
    ⟨u, hexecLo, hloLo, hhiLo, hregsLo⟩⟩

/-! ### Products (R141, R149, R150) -/

/-- The product of two signed words needs no reduction in 64 bits: it is at most 2^62 in magnitude. -/
theorem toInt_ofInt_mul (a b : Word) : (BitVec.ofInt 64 (a.toInt * b.toInt)).toInt = a.toInt * b.toInt := by
  have hlower : -2 ^ 62 ≤ a.toInt * b.toInt := BitVec.le_toInt_mul_toInt
  have hupper : a.toInt * b.toInt ≤ 2 ^ 62 := BitVec.toInt_mul_toInt_le
  exact BitVec.toInt_ofInt_eq_self (by decide) (by omega) (by omega)

/-- The product of two unsigned words needs no reduction in 64 bits. -/
theorem toNat_ofNat_mul (a b : Word) : (BitVec.ofNat 64 (a.toNat * b.toNat)).toNat = a.toNat * b.toNat := by
  rw [BitVec.toNat_ofNat, Nat.mod_eq_of_lt BitVec.toNat_mul_toNat_lt]

/-- Settles O23: HI and LO are the halves of a double word that is the exact product. -/
theorem multiplyGivesTheExactProduct : Obligations.MultiplyGivesTheExactProduct := by
  intro s rs rt
  obtain ⟨hi, lo, hsigned, hmult⟩ := setsHiLo_of_writeProduct (i := .mult rs rt) (s := s) rfl
  obtain ⟨hiU, loU, hunsigned, hmultu⟩ := setsHiLo_of_writeProduct (i := .multu rs rt) (s := s) rfl
  refine ⟨decodeOfEncode (.mult rs rt), decodeOfEncode (.multu rs rt), ⟨hi, lo, ?_, hmult⟩, ⟨hiU, loU, ?_, hmultu⟩⟩
  · rw [hsigned, toInt_ofInt_mul]
  · rw [hunsigned, toNat_ofNat_mul]

/-! ### Unsigned division (R144) -/

/-- A zero divisor leaves the result open (D16). -/
theorem execDivu_of_zero {s : State} {rs rt : Reg} (hzero : s.readReg rt = 0#32) : execDivu rs rt s = drawHiLo s :=
  if_pos hzero

/-- By another divisor, DIVU is the library's unsigned division of words. -/
theorem setsHiLo_divu {s : State} {rs rt : Reg} (hne : s.readReg rt ≠ 0#32) :
    SetsHiLo (.divu rs rt) s (s.readReg rs % s.readReg rt) (s.readReg rs / s.readReg rt) 0 := by
  have hexec : execDivu rs rt s = writeHiLo s (BitVec.ofNat 32 (s.readReg rs % s.readReg rt).toNat)
      (BitVec.ofNat 32 (s.readReg rs / s.readReg rt).toNat) := if_neg hne
  rw [BitVec.ofNat_toNat, BitVec.ofNat_toNat, BitVec.setWidth_eq, BitVec.setWidth_eq] at hexec
  exact setsHiLo_of_exec (n := 0) hexec

/-- Settles O24: one case for each branch of `execDivu`. -/
theorem divuQuotientAndRemainder : Obligations.DivuQuotientAndRemainder := fun _ rs rt =>
  ⟨decodeOfEncode (.divu rs rt), setsHiLo_divu, fun hzero => setsHiLo_of_drawHiLo (execDivu_of_zero hzero)⟩

/-! ### Signed division (R142, R143) -/

/-- The quotient towards zero, reduced to a word, is the library's. It is not the exact quotient in the overflow case. -/
theorem ofInt_tdiv (a b : Word) : BitVec.ofInt 32 (a.toInt.tdiv b.toInt) = a.sdiv b :=
  BitVec.eq_of_toInt_eq (by rw [BitVec.toInt_ofInt, BitVec.toInt_sdiv])

/-- The remainder that the quotient towards zero leaves. -/
theorem toInt_srem_eq_sub (a b : Word) : (a.srem b).toInt = a.toInt - a.toInt.tdiv b.toInt * b.toInt := by
  rw [BitVec.toInt_srem, Int.tmod_def, Int.mul_comm]

/-- What the model writes when the quotient is defined and fits: the library's signed division of words. -/
theorem writeSignedQuotient_eq (s : State) (a b : Word) :
    writeSignedQuotient s a.toInt b.toInt = writeHiLo s (a.srem b) (a.sdiv b) := by
  rw [writeSignedQuotient, ofInt_tdiv, ← toInt_srem_eq_sub, BitVec.ofInt_toInt]

/-- The overflow case of the rule, in signed values, is the one the model tests for, in words. -/
theorem overflowing_division_iff (a b : Word) :
    (a.toInt = -2147483648 ∧ b.toInt = -1) ↔ (a = 0x80000000#32 ∧ b = 0xFFFFFFFF#32) :=
  and_congr (BitVec.toInt_inj (y := 0x80000000#32)) (BitVec.toInt_inj (y := 0xFFFFFFFF#32))

/-- Outside the overflow case the word quotient is the exact one. -/
theorem toInt_sdiv_of_fits {a b : Word} (hfits : ¬ (a.toInt = -2147483648 ∧ b.toInt = -1)) :
    (a.sdiv b).toInt = a.toInt.tdiv b.toInt := by
  rw [overflowing_division_iff, not_and_or] at hfits
  exact BitVec.toInt_sdiv_of_ne_or_ne a b hfits

section Division

variable {s : State} {rs rt : Reg}

/-- A zero divisor leaves the result open (D16). -/
theorem execDiv_of_zero (hzero : s.readReg rt = 0#32) : execDiv rs rt s = drawHiLo s := if_pos hzero

/-- In the overflow case DIV_OVF says what is written (D17). -/
theorem execDiv_of_overflow (hrs : (s.readReg rs).toInt = -2147483648) (hrt : (s.readReg rt).toInt = -1) :
    (s.params.divOvf = .wrap → execDiv rs rt s = writeHiLo s 0x00000000#32 0x80000000#32) ∧
    (s.params.divOvf = .any → execDiv rs rt s = drawHiLo s) := by
  obtain ⟨ha, hb⟩ := (overflowing_division_iff _ _).1 ⟨hrs, hrt⟩
  constructor <;> intro hovf <;> simp [execDiv, ha, hb, hovf]

/-- By a divisor other than 0, and outside the overflow case, DIV is the library's signed division of words. -/
theorem setsHiLo_div (hne : s.readReg rt ≠ 0#32)
    (hfits : ¬ ((s.readReg rs).toInt = -2147483648 ∧ (s.readReg rt).toInt = -1)) :
    SetsHiLo (.div rs rt) s ((s.readReg rs).srem (s.readReg rt)) ((s.readReg rs).sdiv (s.readReg rt)) 0 := by
  rw [overflowing_division_iff] at hfits
  have hexec : execDiv rs rt s = writeSignedQuotient s (s.readReg rs).toInt (s.readReg rt).toInt :=
    (if_neg hne).trans (if_neg hfits)
  exact setsHiLo_of_exec (n := 0) (hexec.trans (writeSignedQuotient_eq s _ _))

end Division

/-- Settles O25: one clause for each branch of `execDiv`; in the last the word quotient is the exact one. -/
theorem divQuotientAndRemainder : Obligations.DivQuotientAndRemainder := by
  rintro s rs rt a b rfl rfl
  refine ⟨decodeOfEncode (.div rs rt), fun hzero => ?zero, fun ha hb hwrap => ?wrap, fun ha hb hany => ?any,
    fun hne hfits => ?fits⟩
  case zero => exact setsHiLo_of_drawHiLo (execDiv_of_zero hzero)
  case wrap => exact setsHiLo_of_exec (n := 0) ((execDiv_of_overflow ha hb).1 hwrap)
  case any => exact setsHiLo_of_drawHiLo ((execDiv_of_overflow ha hb).2 hany)
  case fits => exact ⟨_, _, setsHiLo_div hne hfits, toInt_sdiv_of_fits hfits, toInt_srem_eq_sub _ _⟩

/-! ### The division law (R142) -/

/-- The remainder is smaller than the divisor in magnitude. -/
theorem natAbs_tmod_lt (a : Int) {b : Int} (hb : b ≠ 0) : (a.tmod b).natAbs < b.natAbs := by
  rw [Int.natAbs_tmod]
  exact Nat.mod_lt _ (Int.natAbs_pos.2 hb)

/-- A dividend that is not positive leaves no positive remainder. -/
theorem tmod_nonpos {a : Int} (b : Int) (ha : a ≤ 0) : a.tmod b ≤ 0 := by
  have hneg : 0 ≤ (-a).tmod b := Int.tmod_nonneg b (by omega)
  rw [Int.neg_tmod] at hneg
  omega

/-- Settles O26: the laws of `Int.tdiv` and `Int.tmod`, and of `/` and `%` on natural numbers, read off HI and LO. -/
theorem divisionLaw : Obligations.DivisionLaw := by
  rintro s rs rt a b rfl rfl hne
  refine ⟨fun hfits => ?signed, ?unsigned⟩
  case signed =>
    have hb : (s.readReg rt).toInt ≠ 0 := BitVec.toInt_ne.2 hne
    obtain ⟨t, hexec, -, hhi, hlo, -⟩ := setsHiLo_div (rs := rs) hne hfits
    refine ⟨t, hexec, ?_⟩
    rw [hhi, hlo, BitVec.toInt_srem, toInt_sdiv_of_fits hfits]
    exact ⟨(Int.tdiv_mul_add_tmod _ _).symm, natAbs_tmod_lt _ hb, Int.tmod_nonneg _, tmod_nonpos _⟩
  case unsigned =>
    have hb : 0 < (s.readReg rt).toNat := Nat.pos_of_ne_zero (BitVec.toNat_ne.1 hne)
    obtain ⟨t, hexec, -, hhi, hlo, -⟩ := setsHiLo_divu (rs := rs) hne
    refine ⟨t, hexec, ?_⟩
    rw [hhi, hlo, BitVec.toNat_umod, BitVec.toNat_udiv]
    exact ⟨(Nat.div_add_mod' _ _).symm, Nat.mod_lt _ hb⟩

end Sys2Proof.Proofs
end

section
/-! # Branches and jumps (`43_branch_jump.md`)

Every control transfer outside a delay slot ends in `State.transferTo`, a branch that is not taken with the address it falls
through to. `transfers_of_exec` and `transfersAndLinks_of_exec` turn that form into the words of the statements, the second
with `$rd` written after `n` draws; the targets are put into the spec's words once. -/

namespace Sys2Proof.Proofs

open Sys2Proof.Machine

/-! ### Inside a delay slot, and outside (R171) -/

theorem unlessInDelaySlot_inside {s : State} (inside : s.inDelay = true) (x : StepOutcome) :
    unlessInDelaySlot s x = .refused .controlTransferInDelaySlot := by
  simp [unlessInDelaySlot, inside]

theorem unlessInDelaySlot_outside {s : State} (outside : s.inDelay = false) (x : StepOutcome) :
    unlessInDelaySlot s x = x := by
  simp [unlessInDelaySlot, outside]

/-- Settles O33: the meaning of each of the twelve stands behind the check for a delay slot. -/
theorem controlTransferRefusedInDelaySlot : Obligations.ControlTransferRefusedInDelaySlot := by
  intro i s htransfer inside
  cases i
  case beq | bne | bgez | bgtz | blez | bltz | bgezal | bltzal | j | jal | jr | jalr =>
    exact unlessInDelaySlot_inside inside _
  all_goals exact absurd htransfer Bool.false_ne_true

/-! ### Targets (R156, R157) -/

/-- Two zero bits on the right multiply the displacement by 4. -/
theorem branchTarget_eq_targetOf (s : State) (imm : Imm16) : branchTarget s imm = targetOf s imm := by
  have hshift : sext16 imm <<< 2 = imm.signExtend 32 * 4#32 := BitVec.shiftLeft_eq_mul_twoPow _ 2
  have hbase : branchBaseBytes s.params = if s.params.branchBase = .four then 4#32 else 0#32 := by
    unfold branchBaseBytes
    cases s.params.branchBase <;> rfl
  rw [branchTarget, targetOf, hshift, hbase]

/-- The mask keeps the region and clears the address within it. -/
theorem and_regionMask (w : Word) : w &&& 0xF0000000#32 = w.extractLsb' 28 4 ++ 0#28 := by
  have hsplit : w.extractLsb' 28 4 ++ w.extractLsb' 0 28 = w :=
    BitVec.extractLsb'_append_extractLsb'_eq_extractLsb' rfl |>.trans BitVec.extractLsb'_eq_self
  calc w &&& 0xF0000000#32
    _ = (w.extractLsb' 28 4 ++ w.extractLsb' 0 28) &&& (BitVec.allOnes 4 ++ 0#28) := by rw [hsplit]; rfl
    _ = w.extractLsb' 28 4 ++ 0#28 := by rw [BitVec.and_append, BitVec.and_allOnes, BitVec.and_zero]

/-- The region, the field and two zero bits lie side by side. -/
theorem jumpTarget_eq_append (s : State) (imm26 : Imm26) :
    jumpTarget s imm26 = s.npc.extractLsb' 28 4 ++ imm26 ++ 0#2 := by
  have hregion := BitVec.setWidth_append_eq_shiftLeft_setWidth_or (w'' := 32) (b := s.npc.extractLsb' 28 4) (b' := 0#28)
  have htarget := BitVec.setWidth_append_append_eq_shiftLeft_setWidth_or (w''' := 32) (b := s.npc.extractLsb' 28 4)
    (b' := imm26) (b'' := 0#2)
  rw [BitVec.setWidth_eq, BitVec.setWidth_zero, BitVec.or_zero] at hregion htarget
  rw [jumpTarget, and_regionMask, hregion]
  exact htarget.symm

/-! ### The shared forms (R155, R158) -/

section Forms

variable {i j : Instr} {s : State} {imm : Imm16} {taken : Bool} {target : Word}

theorem transfers_of_exec (h : exec i s = .next (s.transferTo target)) : Transfers i s target :=
  ⟨_, h, fun _ => rfl, ⟨rfl, rfl⟩, fun _ => rfl, ⟨rfl, rfl, rfl, rfl⟩, rfl, rfl, rfl⟩

/-- A transfer after `n` draws and a write to one register. -/
theorem transfersAndLinks_of_exec {r : Reg} {v : Word} {n : Nat}
    (h : exec i s = .next ((State.writeReg { s with draws := s.draws + n } r v).transferTo target)) :
    TransfersAndLinks i s target r v n := by
  refine ⟨_, h, fun q => ?_, ⟨?_, ?_⟩, fun a => ?_, ⟨?_, rfl, rfl, rfl⟩, ?_, ?_, ?_⟩
  · rw [State.readReg_transferTo, State.readReg_writeReg]
    rfl
  · simp
  · simp
  · rw [State.readByte_transferTo, State.readByte_writeReg]
    rfl
  all_goals simp

theorem branchIf_taken (outside : s.inDelay = false) (imm : Imm16) :
    branchIf s true imm = .next (s.transferTo (targetOf s imm)) := by
  rw [branchIf, unlessInDelaySlot_outside outside, if_pos rfl, branchTarget_eq_targetOf]

theorem branchIf_notTaken (outside : s.inDelay = false) (imm : Imm16) :
    branchIf s false imm = .next (s.transferTo (s.npc + 4#32)) :=
  unlessInDelaySlot_outside outside _

/-- Two branches on opposite conditions: one transfers, the other falls through. -/
theorem opposite_branches (outside : s.inDelay = false) (hi : exec i s = branchIf s taken imm)
    (hj : exec j s = branchIf s (!taken) imm) :
    (taken = true → Transfers i s (targetOf s imm) ∧ Transfers j s (s.npc + 4#32)) ∧
    (taken = false → Transfers i s (s.npc + 4#32) ∧ Transfers j s (targetOf s imm)) := by
  constructor <;> rintro rfl
  · exact ⟨transfers_of_exec (hi.trans (branchIf_taken outside imm)),
      transfers_of_exec (hj.trans (branchIf_notTaken outside imm))⟩
  · exact ⟨transfers_of_exec (hi.trans (branchIf_notTaken outside imm)),
      transfers_of_exec (hj.trans (branchIf_taken outside imm))⟩

end Forms

/-! ### Conditional branches (R159, R160, R162 to R164, R166) -/

/-- Settles O27: BEQ and BNE branch on opposite conditions. -/
theorem equalityBranches : Obligations.EqualityBranches := by
  intro s rs rt imm
  have branches (outside : s.inDelay = false) :=
    opposite_branches (i := .beq rs rt imm) (j := .bne rs rt imm) outside rfl rfl
  exact ⟨decodeOfEncode (.beq rs rt imm), decodeOfEncode (.bne rs rt imm),
    fun outside heq => (branches outside).1 (beq_iff_eq.2 heq),
    fun outside hne => (branches outside).2 (beq_eq_false_iff_ne.2 hne)⟩

/-- The sign bit is the sign. -/
theorem isNegative_eq_msb (v : Word) : isNegative v = v.msb := BitVec.msb_eq_toInt.symm

theorem isNonNegative_eq_not_msb (v : Word) : isNonNegative v = !v.msb := by
  rw [← isNegative_eq_msb, isNonNegative, isNegative, ← decide_not]
  simp

theorem isNonPositive_eq_not_isPositive (v : Word) : isNonPositive v = !isPositive v := by
  rw [isNonPositive, isPositive, ← decide_not]
  simp

theorem isPositive_eq_true_iff (v : Word) : isPositive v = true ↔ v.msb = false ∧ v ≠ 0#32 := by
  have hzero : v.toInt = 0 ↔ v = 0#32 := BitVec.toInt_inj (y := 0#32)
  rw [BitVec.msb_eq_toInt, ne_eq, ← hzero, isPositive, decide_eq_true_eq, decide_eq_false_iff_not]
  omega

theorem isPositive_eq_false_iff (v : Word) : isPositive v = false ↔ v.msb = true ∨ v = 0#32 := by
  rw [← Bool.not_eq_true, isPositive_eq_true_iff, not_and_or, Bool.not_eq_false, not_not]

/-- Settles O28: BGEZ and BLTZ branch on opposite conditions, and so do BGTZ and BLEZ. -/
theorem signBranches : Obligations.SignBranches := by
  rintro s rs imm v rfl
  have hltz : isNegative (s.readReg rs) = !isNonNegative (s.readReg rs) := by
    rw [isNegative_eq_msb, isNonNegative_eq_not_msb, Bool.not_not]
  have bySign (outside : s.inDelay = false) :=
    opposite_branches (i := .bgez rs imm) (j := .bltz rs imm) outside rfl (congrArg (branchIf s · imm) hltz)
  have byPositivity (outside : s.inDelay = false) :=
    opposite_branches (i := .bgtz rs imm) (j := .blez rs imm) outside rfl
      (congrArg (branchIf s · imm) (isNonPositive_eq_not_isPositive (s.readReg rs)))
  rw [isNonNegative_eq_not_msb, Bool.not_eq_true', Bool.not_eq_false'] at bySign
  rw [isPositive_eq_true_iff, isPositive_eq_false_iff] at byPositivity
  exact ⟨decodeOfEncode (.bgez rs imm), decodeOfEncode (.bgtz rs imm), decodeOfEncode (.blez rs imm),
    decodeOfEncode (.bltz rs imm), fun outside => (bySign outside).1, fun outside => (bySign outside).2,
    fun outside => (byPositivity outside).1, fun outside => (byPositivity outside).2⟩

/-! ### Branches that link (R161, R165) -/

/-- Writing back what a register holds changes nothing. -/
theorem writeReg_readReg_self (s : State) (r : Reg) : s.writeReg r (s.readReg r) = s := by
  unfold State.writeReg State.readReg
  split
  · rfl
  · simp

/-- With LINK_NOT_TAKEN = draw, `$31` is written in either case: with the link, or with what it held (D9). -/
theorem linkNotTaken_of_draw {s : State} (hdraw : s.params.linkNotTaken = .draw) :
    linkNotTaken s = s.afterDraw.writeReg linkReg (if s.drawLink then linkValue s else s.readReg linkReg) := by
  rcases linkNotTaken_cases s with ⟨-, hlink, e⟩ | ⟨-, hkeep, e⟩ | ⟨hother, -⟩ | ⟨hother, -⟩
  · rw [e, if_pos hlink]
    exact (beside_writeReg _ _).afterDraw_eq s
  · rw [e, if_neg (Bool.eq_false_iff.1 hkeep)]
    exact (writeReg_readReg_self s.afterDraw linkReg).symm
  all_goals simp [hdraw] at hother

theorem linkNotTaken_of_always {s : State} (halways : s.params.linkNotTaken = .always) :
    linkNotTaken s = s.writeReg linkReg (linkValue s) := by
  simp [linkNotTaken, halways]

theorem linkNotTaken_of_onlyIfTaken {s : State} (honly : s.params.linkNotTaken = .onlyIfTaken) : linkNotTaken s = s := by
  simp [linkNotTaken, honly]

section Linking

variable {i : Instr} {s : State} {imm : Imm16} {taken : Bool}

theorem branchIfAndLink_taken (outside : s.inDelay = false) (imm : Imm16) :
    branchIfAndLink s true imm = .next ((s.writeReg linkReg (linkValue s)).transferTo (targetOf s imm)) := by
  rw [branchIfAndLink, unlessInDelaySlot_outside outside, if_pos rfl, branchTarget_eq_targetOf]

theorem branchIfAndLink_notTaken (outside : s.inDelay = false) (imm : Imm16) :
    branchIfAndLink s false imm = .next ((linkNotTaken s).transferTo (s.npc + 4#32)) := by
  rw [← linkNotTaken_npc s]
  exact unlessInDelaySlot_outside outside _

/-- Everything a branch that links does outside a delay slot. -/
theorem linking_branch (outside : s.inDelay = false) (h : exec i s = branchIfAndLink s taken imm) :
    (taken = true → TransfersAndLinks i s (targetOf s imm) 31#5 (s.pc + 8#32) 0) ∧
    (taken = false → s.params.linkNotTaken = .draw →
      TransfersAndLinks i s (s.npc + 4#32) 31#5 (if Config.anyLink s.draws then s.pc + 8#32 else s.readReg 31#5) 1) ∧
    (taken = false → s.params.linkNotTaken = .always →
      TransfersAndLinks i s (s.npc + 4#32) 31#5 (s.pc + 8#32) 0) ∧
    (taken = false → s.params.linkNotTaken = .onlyIfTaken → Transfers i s (s.npc + 4#32)) := by
  refine ⟨?taken, ?draw, ?always, ?onlyIfTaken⟩ <;> rintro rfl
  case taken => exact transfersAndLinks_of_exec (n := 0) (h.trans (branchIfAndLink_taken outside imm))
  all_goals
    intro hparam
    rw [branchIfAndLink_notTaken outside] at h
  case draw =>
    rw [linkNotTaken_of_draw hparam] at h
    exact transfersAndLinks_of_exec (n := 1) h
  case always =>
    rw [linkNotTaken_of_always hparam] at h
    exact transfersAndLinks_of_exec (n := 0) h
  case onlyIfTaken =>
    rw [linkNotTaken_of_onlyIfTaken hparam] at h
    exact transfers_of_exec h

end Linking

/-- Settles O29: the linking branch on the sign bit being clear. -/
theorem bgezalLinks : Obligations.BgezalLinks := by
  intro s rs imm outside
  have branch := linking_branch (i := .bgezal rs imm) outside rfl
  rw [isNonNegative_eq_not_msb, Bool.not_eq_true', Bool.not_eq_false'] at branch
  exact ⟨decodeOfEncode (.bgezal rs imm), branch⟩

/-- Settles O30: the linking branch on the sign bit being set. -/
theorem bltzalLinks : Obligations.BltzalLinks := by
  intro s rs imm outside
  have branch := linking_branch (i := .bltzal rs imm) outside rfl
  rw [isNegative_eq_msb] at branch
  exact ⟨decodeOfEncode (.bltzal rs imm), branch⟩

/-! ### Jumps (R167 to R170) -/

/-- Settles O31: the field goes into the region of the delay slot, which the link does not move. -/
theorem jumpsWithinTheRegion : Obligations.JumpsWithinTheRegion := by
  intro s imm26 outside
  rw [← jumpTarget_eq_append]
  exact ⟨decodeOfEncode (.j imm26), decodeOfEncode (.jal imm26),
    transfers_of_exec (unlessInDelaySlot_outside outside _),
    transfersAndLinks_of_exec (n := 0) (unlessInDelaySlot_outside outside _)⟩

/-- Settles O32: the target is a value of the state before the link; JALR tests for its one meaningless pair of registers. -/
theorem jumpsThroughARegister : Obligations.JumpsThroughARegister := by
  intro s rd rs outside
  have hjalr := unlessInDelaySlot_outside outside (if rd = rs ∧ rd ≠ 0#5 then .refused .jalrSameRegister
    else .next ((s.writeReg rd (linkValue s)).transferTo (s.readReg rs)))
  refine ⟨decodeOfEncode (.jr rs), decodeOfEncode (.jalr rd rs),
    transfers_of_exec (unlessInDelaySlot_outside outside _), fun hmeant => ?meant, fun hsame => hjalr.trans (if_pos hsame)⟩
  case meant =>
    have hapart : ¬ (rd = rs ∧ rd ≠ 0#5) := by rwa [not_and_or, not_not]
    exact transfersAndLinks_of_exec (n := 0) (hjalr.trans (if_neg hapart))

end Sys2Proof.Proofs
end

section
/-! # Loads and stores (`44_load_store.md`)

A load is `finishLoad` behind the checks of its width, a store is a write of so many bytes behind its own.
`loadsReg_of_exec` and `storesBytes_of_exec` turn these two forms into the words of the statements, once the checks pass. What
is left of an obligation is the byte order: which bytes a value read is put together from, and which bytes a value written is
taken apart into. -/

namespace Sys2Proof.Proofs

open Sys2Proof.Machine

/-! ### The checks that pass (R40, R43, R175) -/

section Forms

variable {i : Instr} {s : State} {ea : Word}

theorem checkedLoad_of_checks {n : Nat} {x : StepOutcome} (haligned : ea.toNat % n = 0) (hmapped : AllMapped s ea n) :
    checkedLoad s n ea x = x := by
  rw [checkedLoad, if_pos ((aligned_iff n ea).2 haligned), if_pos ((mapped_iff_allMapped s ea n).2 hmapped)]

theorem checkedStore_of_checks {n : Nat} {x : StepOutcome} (haligned : ea.toNat % n = 0) (hmapped : AllMapped s ea n)
    (htext : NoneInText s ea n) : checkedStore s n ea x = x := by
  have htouches : s.touchesText ea n = false := (touchesText_eq_false_iff s ea n).2 htext
  rw [checkedStore, if_pos ((aligned_iff n ea).2 haligned), if_pos ((mapped_iff_allMapped s ea n).2 hmapped),
    if_neg (Bool.eq_false_iff.1 htouches)]

theorem allMapped_one_iff : AllMapped s ea 1 ↔ Region.anyHolds s.params.memMap ea.toNat = true := by
  simp only [AllMapped, Nat.lt_one_iff, forall_eq, BitVec.add_zero]

/-! ### The two shared forms (R176, R177) -/

/-- A load that passes its checks and writes the model's value `w`, where its rule states the value `v`. -/
theorem loadsReg_of_exec {n : Nat} {rt : Reg} {v w : Word} (h : exec i s = checkedLoad s n ea (finishLoad s rt w))
    (haligned : ea.toNat % n = 0) (hmapped : AllMapped s ea n) (hw : w = v) : LoadsReg i s rt v := by
  subst hw
  rw [checkedLoad_of_checks haligned hmapped] at h
  refine ⟨(s.writeReg rt w).advanceLoad rt, h, fun q => ?_, ⟨?_, ?_⟩, fun a => ?_, ⟨?_, ?_, rfl, rfl⟩, ?_, ?_, ?_⟩
  · rw [State.readReg_advanceLoad, State.readReg_writeReg]
  all_goals simp

/-- A store that passes its checks and writes the model's bytes `cs`, where its rule states the bytes `bs`. -/
theorem storesBytes_of_exec {bs cs : List Byte}
    (h : exec i s = checkedStore s bs.length ea (.next (s.writeBytes ea cs).advance)) (hshort : bs.length ≤ 4)
    (haligned : ea.toNat % bs.length = 0) (hmapped : AllMapped s ea bs.length) (htext : NoneInText s ea bs.length)
    (hbytes : cs = bs) : StoresBytes i s ea bs := by
  subst hbytes
  rw [checkedStore_of_checks haligned hmapped htext] at h
  exact ⟨_, h, fun _ => rfl, ⟨rfl, rfl⟩, State.readByte_writeBytes s ea cs (by omega), ⟨rfl, rfl, rfl, rfl⟩,
    rfl, rfl, rfl⟩

end Forms

/-! ### Loads (R178 to R182) -/

/-- Settles O35: a single byte is always aligned, so the only check left is that of MEM_MAP. -/
theorem byteLoads : Obligations.ByteLoads := by
  rintro s rt rs imm ea rfl
  refine ⟨decodeOfEncode (.lb rt imm rs), decodeOfEncode (.lbu rt imm rs), fun hin => ?mapped, fun hout => ?unmapped⟩
  case mapped =>
    have hmapped := allMapped_one_iff.2 hin
    exact ⟨loadsReg_of_exec rfl (Nat.mod_one _) hmapped rfl, loadsReg_of_exec rfl (Nat.mod_one _) hmapped rfl⟩
  case unmapped =>
    have hunmapped : ¬ AllMapped s (addressOf s rs imm) 1 := by rw [allMapped_one_iff, hout]; exact Bool.false_ne_true
    exact ⟨checkedLoad_unmapped (Nat.mod_one _) hunmapped, checkedLoad_unmapped (Nat.mod_one _) hunmapped⟩

section ByteOrder

variable {s : State} (a : Word)

theorem read2_of_big (he : s.params.endian = .big) : s.read2 a = s.readByte a ++ s.readByte (a + 1#32) := by
  rw [State.read2, he, halfOfBytes]

theorem read2_of_little (he : s.params.endian = .little) : s.read2 a = s.readByte (a + 1#32) ++ s.readByte a := by
  rw [State.read2, he, halfOfBytes]

theorem read4_of_big (he : s.params.endian = .big) : s.read4 a =
    s.readByte a ++ s.readByte (a + 1#32) ++ s.readByte (a + 2#32) ++ s.readByte (a + 3#32) := by
  rw [State.read4, he, wordOfBytes]

theorem read4_of_little (he : s.params.endian = .little) : s.read4 a =
    s.readByte (a + 3#32) ++ s.readByte (a + 2#32) ++ s.readByte (a + 1#32) ++ s.readByte a := by
  rw [State.read4, he, wordOfBytes]

end ByteOrder

/-- Settles O36: LH and LHU extend one and the same half word, and LW takes the word as it is read. -/
theorem halfAndWordLoads : Obligations.HalfAndWordLoads := by
  rintro s rt rs imm ea b0 b1 b2 b3 rfl rfl rfl rfl rfl
  have halves {v : Half} (haligned : (addressOf s rs imm).toNat % 2 = 0) (hmapped : AllMapped s (addressOf s rs imm) 2)
      (hv : s.read2 (addressOf s rs imm) = v) :
      LoadsReg (.lh rt imm rs) s rt (v.signExtend 32) ∧ LoadsReg (.lhu rt imm rs) s rt (v.zeroExtend 32) :=
    ⟨loadsReg_of_exec rfl haligned hmapped (congrArg sext16 hv), loadsReg_of_exec rfl haligned hmapped (congrArg zext16 hv)⟩
  exact ⟨decodeOfEncode (.lh rt imm rs), decodeOfEncode (.lhu rt imm rs), decodeOfEncode (.lw rt imm rs),
    fun haligned hmapped he => halves haligned hmapped (read2_of_big _ he),
    fun haligned hmapped he => halves haligned hmapped (read2_of_little _ he),
    fun haligned hmapped he => loadsReg_of_exec rfl haligned hmapped (read4_of_big _ he),
    fun haligned hmapped he => loadsReg_of_exec rfl haligned hmapped (read4_of_little _ he)⟩

/-! ### Stores (R183 to R185) -/

/-- A half word put together in a byte order comes apart into the same bytes. -/
theorem bytesOfHalf_halfOfBytes (e : Endian) (b0 b1 : Byte) : bytesOfHalf e (halfOfBytes e b0 b1) = [b0, b1] := by
  have parts (x y : Byte) : (x ++ y).extractLsb' 8 8 = x ∧ (x ++ y).extractLsb' 0 8 = y :=
    ⟨BitVec.extractLsb'_append_eq_left, BitVec.extractLsb'_append_eq_right⟩
  cases e <;> simp [bytesOfHalf, halfOfBytes, parts]

/-- A word put together in a byte order comes apart into the same bytes. -/
theorem bytesOfWord_wordOfBytes (e : Endian) (b0 b1 b2 b3 : Byte) :
    bytesOfWord e (wordOfBytes e b0 b1 b2 b3) = [b0, b1, b2, b3] := by
  have above {n : Nat} {x : BitVec n} (b : Byte) (k : Nat) : (x ++ b).extractLsb' (k + 8) 8 = x.extractLsb' k 8 :=
    BitVec.extractLsb'_append_eq_of_le (by omega)
  have parts (x y z w : Byte) : (x ++ y ++ z ++ w).extractLsb' 24 8 = x ∧ (x ++ y ++ z ++ w).extractLsb' 16 8 = y ∧
      (x ++ y ++ z ++ w).extractLsb' 8 8 = z ∧ (x ++ y ++ z ++ w).extractLsb' 0 8 = w :=
    ⟨above w 16 |>.trans (above z 8) |>.trans (above y 0) |>.trans (BitVec.extractLsb'_eq_self),
      above w 8 |>.trans (above z 0) |>.trans BitVec.extractLsb'_append_eq_right,
      above w 0 |>.trans BitVec.extractLsb'_append_eq_right, BitVec.extractLsb'_append_eq_right⟩
  cases e <;> simp [bytesOfWord, wordOfBytes, parts]

section Stores

variable {s : State} {rt rs : Reg} {imm : Imm16} {b0 b1 b2 b3 : Byte}

/-- SH stores the low half word of `x[rt]`, whatever lies above it. -/
theorem storesBytes_sh {upper : Half} (hrt : s.readReg rt = upper ++ halfOfBytes s.params.endian b0 b1)
    (haligned : (addressOf s rs imm).toNat % 2 = 0) (hmapped : AllMapped s (addressOf s rs imm) 2)
    (htext : NoneInText s (addressOf s rs imm) 2) : StoresBytes (.sh rt imm rs) s (addressOf s rs imm) [b0, b1] := by
  have hlow : (s.readReg rt).extractLsb' 0 16 = halfOfBytes s.params.endian b0 b1 :=
    hrt ▸ BitVec.extractLsb'_append_eq_right
  have hbytes : bytesOfHalf s.params.endian ((s.readReg rt).extractLsb' 0 16) = [b0, b1] := by
    rw [hlow, bytesOfHalf_halfOfBytes]
  exact storesBytes_of_exec rfl (by simp) haligned hmapped htext hbytes

theorem storesBytes_sw (hrt : s.readReg rt = wordOfBytes s.params.endian b0 b1 b2 b3)
    (haligned : (addressOf s rs imm).toNat % 4 = 0) (hmapped : AllMapped s (addressOf s rs imm) 4)
    (htext : NoneInText s (addressOf s rs imm) 4) :
    StoresBytes (.sw rt imm rs) s (addressOf s rs imm) [b0, b1, b2, b3] := by
  have hbytes : bytesOfWord s.params.endian (s.readReg rt) = [b0, b1, b2, b3] := by
    rw [hrt, bytesOfWord_wordOfBytes]
  exact storesBytes_of_exec rfl (by simp) haligned hmapped htext hbytes

end Stores

/-- Settles O37: `x[rt]` is the word, and its lower half the half word, that the byte order puts together from the bytes
stored. -/
theorem storesWriteTheirBytes : Obligations.StoresWriteTheirBytes := by
  rintro s rt rs imm ea b3 b2 b1 b0 rfl hrt
  have hlow : (s.readReg rt).extractLsb' 0 8 = b0 := hrt ▸ BitVec.extractLsb'_append_eq_right
  have hhalves : s.readReg rt = (b3 ++ b2) ++ (b1 ++ b0) := hrt.trans BitVec.append_assoc
  exact ⟨decodeOfEncode (.sb rt imm rs), decodeOfEncode (.sh rt imm rs), decodeOfEncode (.sw rt imm rs),
    fun hmapped htext => storesBytes_of_exec rfl (by simp) (Nat.mod_one _) hmapped htext (congrArg ([·]) hlow),
    fun haligned hmapped htext he => storesBytes_sh (by rw [he]; exact hhalves) haligned hmapped htext,
    fun haligned hmapped htext he => storesBytes_sh (by rw [he]; exact hhalves) haligned hmapped htext,
    fun haligned hmapped htext he => storesBytes_sw (by rw [he]; exact hrt) haligned hmapped htext,
    fun haligned hmapped htext he => storesBytes_sw (by rw [he]; exact hrt) haligned hmapped htext⟩

end Sys2Proof.Proofs
end

section
/-! # System (`45_system.md`)

BREAK and SYSCALL are `raise`, so `raises_raise` says what they do under either setting of TRAP_VECTOR. -/

namespace Sys2Proof.Proofs

open Sys2Proof.Machine

/-! ### Words with ignored fields (R67) -/

theorem isWordOf_brk (rs rt rd : Reg) (sh : Shamt) : IsWordOf (wordR rs rt rd sh 0b001101#6) .brk :=
  isWordOf_of_no_zero_fields (by simp [selectRow, decodeFunction]) rfl

theorem isWordOf_syscall (rs rt rd : Reg) (sh : Shamt) : IsWordOf (wordR rs rt rd sh 0b001100#6) .syscall :=
  isWordOf_of_no_zero_fields (by simp [selectRow, decodeFunction]) rfl

/-! ### The exceptions (R190, R191) -/

theorem raises_brk (s : State) : Raises (exec .brk s) s .breakpoint s.pc := raises_raise .breakpoint s.pc s

theorem raises_syscall (s : State) : Raises (exec .syscall s) s .systemCall s.pc := raises_raise .systemCall s.pc s

/-- Settles O40: of the two settings `Raises` speaks of, this is the one without a vector. -/
theorem breakAndSyscallEndTheRun : Obligations.BreakAndSyscallEndTheRun := by
  intro s a b c d hv
  obtain ⟨hbrk, -⟩ := raises_brk s
  obtain ⟨hsyscall, -⟩ := raises_syscall s
  exact ⟨isWordOf_brk a b c d, isWordOf_syscall a b c d, hbrk hv, hsyscall hv⟩

end Sys2Proof.Proofs
end

section
/-! # Exceptions (`60_exceptions.md`)

One inversion lemma, `exec_fault`, says once every way an instruction can end a run in a trap: it is a `raise` that R200's
table lists for it. For the steps that run no instruction there is one equation for each check of R208, under the hypothesis
that the checks before it have passed. -/

namespace Sys2Proof.Proofs

open Sys2Proof.Machine

/-! ### The exceptions an instruction can raise (R200) -/

/-- The rows of R200's table that an instruction's own rule can raise, with the value recorded: the exception `e` with `info`
is one that the instruction `i` may raise in `s`. That a terminal trap of `exec` is no other is `exec_fault`. -/
inductive RaisedBy (i : Instr) (s : State) : Exception → Word → Prop
  | overflow (mnemonic : i.mnemonic ∈ [.ADD, .ADDI, .SUB]) : RaisedBy i s .overflow s.pc
  | breakpoint (mnemonic : i.mnemonic = .BREAK) : RaisedBy i s .breakpoint s.pc
  | systemCall (mnemonic : i.mnemonic = .SYSCALL) : RaisedBy i s .systemCall s.pc
  | load (ea : Word) (mnemonic : i.mnemonic ∈ [.LH, .LHU, .LW]) (misaligned : ea.toNat % 4 ≠ 0) :
      RaisedBy i s .addressErrorLoad ea
  | store (ea : Word) (mnemonic : i.mnemonic ∈ [.SH, .SW]) (misaligned : ea.toNat % 4 ≠ 0) :
      RaisedBy i s .addressErrorStore ea

section SharedForms

variable {s : State} {f : Fault}

theorem writeUnlessOverflow_fault {o : Bool} {r : Reg} {v : Word} (h : writeUnlessOverflow s o r v = .fault f) :
    raise .overflow s.pc s = .fault f := by
  rcases writeUnlessOverflow_cases s o r v with ⟨-, e⟩ | ⟨-, e⟩ <;> rw [e] at h
  · exact h
  · cases h

theorem writeProduct_ne_fault (p : BitVec 64) : writeProduct s p ≠ .fault f := by
  rcases writeProduct_cases s p with ⟨-, e⟩ | ⟨-, e⟩ <;> rw [e] <;> exact nofun

theorem execDiv_ne_fault (rs rt : Reg) : execDiv rs rt s ≠ .fault f := by
  unfold execDiv
  split
  · exact nofun
  · split
    · split <;> exact nofun
    · exact nofun

theorem execDivu_ne_fault (rs rt : Reg) : execDivu rs rt s ≠ .fault f := by
  unfold execDivu
  split <;> exact nofun

/-- A load traps on its alignment only. -/
theorem checkedLoad_fault {n : Nat} {ea : Word} {t : State} (h : checkedLoad s n ea (.next t) = .fault f) :
    ea.toNat % n ≠ 0 ∧ raise .addressErrorLoad ea s = .fault f := by
  rcases checkedLoad_cases s n ea (.next t) with ⟨hmisaligned, e⟩ | ⟨-, -, e⟩ | ⟨-, -, e⟩ <;> rw [e] at h
  · exact ⟨mt (aligned_iff n ea).2 (Bool.eq_false_iff.1 hmisaligned), h⟩
  · cases h
  · cases h

/-- A store traps on its alignment only. -/
theorem checkedStore_fault {n : Nat} {ea : Word} {t : State} (h : checkedStore s n ea (.next t) = .fault f) :
    ea.toNat % n ≠ 0 ∧ raise .addressErrorStore ea s = .fault f := by
  rcases checkedStore_cases s n ea (.next t) with ⟨hmisaligned, e⟩ | ⟨-, -, e⟩ | ⟨-, -, -, e⟩ | ⟨-, -, -, e⟩ <;>
    rw [e] at h
  · exact ⟨mt (aligned_iff n ea).2 (Bool.eq_false_iff.1 hmisaligned), h⟩
  · cases h
  · cases h
  · cases h

/-- The check of R171 refuses; it does not trap. -/
theorem unlessInDelaySlot_fault {x : StepOutcome} (h : unlessInDelaySlot s x = .fault f) : x = .fault f := by
  rcases unlessInDelaySlot_cases s x with ⟨-, e⟩ | ⟨-, e⟩ <;> rw [e] at h
  · cases h
  · exact h

theorem execJalr_ne_fault (rd rs : Reg) : execJalr rd rs s ≠ .fault f := by
  intro h
  have heffect := unlessInDelaySlot_fault h
  split at heffect <;> cases heffect

end SharedForms

/-- Every way an instruction can fault: it raises an exception that R200's table lists for it. -/
theorem exec_fault {i : Instr} {s : State} {f : Fault} (h : exec i s = .fault f) :
    ∃ e info, RaisedBy i s e info ∧ raise e info s = .fault f := by
  cases i
  case add | addi | sub => exact ⟨_, _, .overflow (by simp [Instr.mnemonic]), writeUnlessOverflow_fault h⟩
  case addiu | addu | and | andi | lui | nor | or | ori | slt | slti | sltiu | sltu | subu | xor | xori => cases h
  case sll | sllv | sra | srav | srl | srlv | mfhi | mflo | mthi | mtlo => cases h
  case mult | multu => exact absurd h (writeProduct_ne_fault _)
  case div => exact absurd h (execDiv_ne_fault _ _)
  case divu => exact absurd h (execDivu_ne_fault _ _)
  case lb | lbu => exact absurd (Nat.mod_one _) (checkedLoad_fault h).1
  case sb => exact absurd (Nat.mod_one _) (checkedStore_fault h).1
  case lh | lhu | lw =>
    obtain ⟨hmisaligned, hraise⟩ := checkedLoad_fault h
    exact ⟨_, _, .load _ (by simp [Instr.mnemonic]) (by omega), hraise⟩
  case sh | sw =>
    obtain ⟨hmisaligned, hraise⟩ := checkedStore_fault h
    exact ⟨_, _, .store _ (by simp [Instr.mnemonic]) (by omega), hraise⟩
  case beq | bne | bgez | bgtz | blez | bltz | bgezal | bltzal | j | jal | jr => cases unlessInDelaySlot_fault h
  case jalr => exact absurd h (execJalr_ne_fault _ _)
  case brk => exact ⟨_, _, .breakpoint rfl, h⟩
  case syscall => exact ⟨_, _, .systemCall rfl, h⟩

/-- Settles O42: the exception is one that `exec_fault` lists, and a `raise` that faults found no trap vector. -/
theorem onlyTheListedInstructionsTrap : Obligations.OnlyTheListedInstructionsTrap := by
  intro i s f h
  obtain ⟨e, info, hlisted, hraise⟩ := exec_fault h
  obtain ⟨hv, hf⟩ := raise_fault hraise
  refine ⟨hv, e, info, hf, ?_⟩
  cases hlisted with
  | overflow mnemonic => exact .inl ⟨rfl, mnemonic, rfl⟩
  | breakpoint mnemonic => exact .inr (.inl ⟨rfl, mnemonic, rfl⟩)
  | systemCall mnemonic => exact .inr (.inr (.inl ⟨rfl, mnemonic, rfl⟩))
  | load _ mnemonic misaligned => exact .inr (.inr (.inr (.inl ⟨rfl, mnemonic, misaligned⟩)))
  | store _ mnemonic misaligned => exact .inr (.inr (.inr (.inr ⟨rfl, mnemonic, misaligned⟩)))

/-! ### The steps that run no instruction (R208) -/

section Step

variable {s : State}

theorem step_of_stop {o : StepOutcome} (h : prepare s = .stop o) : step s = o := by rw [step, h]

theorem step_misaligned (h : s.pc.toNat % 4 ≠ 0) : step s = raise .addressErrorFetch s.pc s :=
  step_of_stop (if_neg (mt (aligned_iff 4 s.pc).1 h))

theorem step_unmapped (haligned : s.pc.toNat % 4 = 0) (hmapped : ¬ AllMapped s s.pc 4) :
    step s = .refused .unmapped := by
  refine step_of_stop ?_
  rw [prepare, if_pos ((aligned_iff 4 s.pc).2 haligned), fetchWord, if_neg (mt (mapped_iff_allMapped s s.pc 4).1 hmapped)]

/-- Behind an aligned and mapped fetch, what stops the decoded word stops the step. -/
theorem step_of_prepareDecoded {o : StepOutcome} (haligned : s.pc.toNat % 4 = 0) (hmapped : AllMapped s s.pc 4)
    (h : prepareDecoded s (s.read4 s.pc) = .stop o) : step s = o := by
  refine step_of_stop ?_
  rw [prepare, if_pos ((aligned_iff 4 s.pc).2 haligned), fetchWord, if_pos ((mapped_iff_allMapped s s.pc 4).2 hmapped)]
  exact h

theorem prepareDecoded_reserved {w : Word} (h : decode s.params w = .reserved) :
    prepareDecoded s w = .stop (raise .reservedInstruction w s) := by
  rw [prepareDecoded, h]

theorem prepareDecoded_nonzeroConstantField {w : Word} (h : decode s.params w = .nonzeroConstantField) :
    prepareDecoded s w = .stop (.refused .nonzeroConstantField) := by
  rw [prepareDecoded, h]

theorem prepareDecoded_loadUse {w : Word} {i : Instr} (h : decode s.params w = .instr i) (huse : loadUse s i = true) :
    prepareDecoded s w = .stop (.refused .loadUse) := by
  simp only [prepareDecoded, h, huse, if_true]

theorem loadUse_of_refuse {i : Instr} (hdelay : s.params.loadDelay = .refuse) (hloaded : s.loadReg ≠ 0#5)
    (hnamed : s.loadReg ∈ namedRegs i) : loadUse s i = true := by
  simp [loadUse, hdelay, hloaded, hnamed]

end Step

/-- Settles O45, one check of R208 after the other. -/
theorem stepsThatRunNoInstruction : Obligations.StepsThatRunNoInstruction := by
  intro s
  refine ⟨fun hmisaligned => ?fetch, step_unmapped, fun ha hm hdec => ?reserved, fun ha hm hdec => ?constantField,
    fun i ha hm hdec hdelay hloaded hnamed => ?loadUse⟩
  case fetch =>
    rw [step_misaligned hmisaligned]
    exact raises_raise _ _ s
  case reserved =>
    rw [step_of_prepareDecoded ha hm (prepareDecoded_reserved hdec)]
    exact raises_raise _ _ s
  case constantField => exact step_of_prepareDecoded ha hm (prepareDecoded_nonzeroConstantField hdec)
  case loadUse => exact step_of_prepareDecoded ha hm (prepareDecoded_loadUse hdec (loadUse_of_refuse hdelay hloaded hnamed))

/-! ### The trap vector (R210) -/

/-- Settles O41: the next state is `trapState`, which differs from `s` in the counters and the record alone. -/
theorem breakAndSyscallGoToTheVector : Obligations.BreakAndSyscallGoToTheVector := by
  intro s v hv
  refine ⟨⟨trapState s v .breakpoint s.pc, raise_of_vector hv, ?_⟩,
    ⟨trapState s v .systemCall s.pc, raise_of_vector hv, ?_⟩⟩
  all_goals exact ⟨rfl, rfl, rfl, rfl, fun _ => rfl, ⟨rfl, rfl⟩, fun _ => rfl, rfl, rfl, rfl⟩

end Sys2Proof.Proofs
end

section
/-! # Reset, runs, and the words of the test vectors (`70_reset_and_hazards.md`, `95_test_vectors.md`)

The invariant holds at reset and every step keeps it (`stepKeepsTheInvariant`); the induction over the steps of a run is
`runUntil_stopsIn`, for any predicate that every step keeps. -/

namespace Sys2Proof.Proofs

open Sys2Proof.Machine

/-! ### Reset (R230 to R233) -/

@[simp] theorem resetWith_readReg (p : Params) (r : Reg) : (State.resetWith p).readReg r = 0#32 := by
  simp [State.readReg, State.resetWith, regsAtReset]

/-- Settles O57: the registers are read through `resetWith_readReg`, everything else is a field. -/
theorem resetLeaves : Obligations.ResetLeaves :=
  fun p r => ⟨rfl, rfl, rfl, rfl, rfl, resetWith_readReg p r, rfl, rfl, rfl⟩

/-- No byte is listed after reset, so none is outside MEM_MAP. -/
theorem memoryInMap_resetWith (p : Params) : MemoryInMap (State.resetWith p) :=
  ⟨resetWith_mem_wf p, fun _ hc => absurd hc List.not_mem_nil⟩

/-- The machine leaves reset in straight-line order (R230, R233). -/
theorem countersAgree_resetWith (p : Params) : CountersAgree (State.resetWith p) := .inl ⟨rfl, rfl⟩

theorem inv_resetWith {p : Params} (hp : p.Wf) : Inv (State.resetWith p) :=
  (inv_iff _).2 ⟨memoryInMap_resetWith p, hp, countersAgree_resetWith p⟩

/-- The parameters the log names (entries 2 to 6) are as R4 asks: RESET_PC is 0, there is no vector, and TEXT is empty. -/
theorem wf_default : Params.default.Wf := by
  refine ⟨rfl, fun v hv => ?_, fun a ha => ?_⟩
  · simp [Params.default] at hv
  · simp [Params.default, Region.anyHolds] at ha

/-- Settles O54: `State.reset` is the reset state under the parameters of `wf_default`. -/
theorem resetMeetsTheInvariant : Obligations.ResetMeetsTheInvariant :=
  ⟨fun _ => inv_resetWith, inv_resetWith wf_default⟩

/-! ### Runs (R234) -/

/-- A run that ends, or still runs, does so in a state with `P`, and END_OF_RUN tells the two apart. -/
def StopsIn (P : State → Prop) (endOfRun : State → Bool) : RunEnd → Prop
  | .ended t => P t ∧ endOfRun t = true
  | .running t => P t ∧ endOfRun t = false
  | .trapped _ | .refused _ => True

/-- What every step keeps holds wherever a run stops for want of steps or by END_OF_RUN. -/
theorem runUntil_stopsIn {P : State → Prop} (hkept : ∀ s t, P s → step s = .next t → P t) (endOfRun : State → Bool)
    (k : Nat) {s : State} (hs : P s) : StopsIn P endOfRun (runUntil endOfRun k s) := by
  induction k generalizing s with
  | zero => cases hend : endOfRun s <;> simp [runUntil, StopsIn, hend, hs]
  | succ k ih =>
    cases hend : endOfRun s with
    | true => simp [runUntil, StopsIn, hend, hs]
    | false =>
      cases hstep : step s with
      | next t => simpa [runUntil, hend, hstep] using ih (hkept s t hs hstep)
      | fault | refused => simp [runUntil, StopsIn, hend, hstep]

/-- Settles O53: the invariant is kept by every step. -/
theorem runsKeepTheInvariant : Obligations.RunsKeepTheInvariant := by
  intro endOfRun k s t hs
  have hstops : StopsIn Inv endOfRun (runUntil endOfRun k s) := runUntil_stopsIn stepKeepsTheInvariant endOfRun k hs
  exact ⟨fun h => by rwa [h] at hstops, fun h => by rwa [h] at hstops⟩

/-! ### Sample words (`95_test_vectors.md` sections 2.1 and 2.2) -/

/-- Settles O7: the first six words are canonical; in that of BREAK the ignored fields are all ones. Of the last two one
selects no row, and the other is that of ADDU with a bit of the constant-zero `sh` set. -/
theorem sampleWordsDecode : Obligations.SampleWordsDecode := by
  refine ⟨decodeOfEncode (.addi 2#5 1#5 0xFFFF#16), decodeOfEncode (.srav 3#5 1#5 2#5), decodeOfEncode (.div 1#5 2#5),
    decodeOfEncode (.bltz 1#5 0xFFFC#16), decodeOfEncode (.jalr 31#5 2#5), decodeOfEncode (.lw 2#5 0xFFFC#16 1#5),
    isWordOf_brk 31#5 31#5 31#5 31#5, decode_of_no_row _ rfl, ?constantField⟩
  case constantField =>
    have hrow : selectRow 0x00221861#32 = some (.addu 3#5 1#5 2#5) := rfl
    exact decode_of_nonzero_field hrow List.not_mem_nil rfl (by decide)

end Sys2Proof.Proofs
end
